-- ==== Sys2Proof/Word.lean ====
section
/-! DEFINITION. The unit of every frame and payload: the byte (00_scope.md R8). There is no wider
quantity anywhere in the sequencer's interfaces (20_memory.md R54), and counters and durations are
natural numbers (R8). -/

namespace Sys2Proof

/-- A byte: 8 bits, bit 0 the least significant (R8). -/
abbrev Byte := BitVec 8

/-- A delimited list of bytes, index 0 first: a command frame (R70) or a response frame (R76). -/
abbrev Frame := List Byte

end Sys2Proof
end

