-- ==== Sys2Proof/Syntax.lean ====
section
/-! DEFINITION. The alphabet: levels, pins, payloads, the fields of a response frame, the host
operations, the micro-operations, and `Instr`, one constructor per row of spec/opcode_table.json. -/

namespace Sys2Proof

/-- An electrical level that is driven or read: `H` or `L` (R9). -/
inductive Level where
  | high
  | low
deriving DecidableEq, Repr, Inhabited

/-- The three output pins (R9): primary chip-select, secondary chip-select, reset output. -/
inductive Pin where
  | cs1
  | cs2
  | rst
deriving DecidableEq, Repr

/-- A command payload (R81): the selector byte, then the parameters. An empty payload cannot be
written down, as R121 asks of `split([])`. -/
structure Payload where
  /-- `P[0]`, the register/command selector of the panel controller. -/
  sel : Byte
  /-- `P[1 ..]`, the parameters, zero or more. -/
  par : List Byte
deriving DecidableEq, Repr

/-- The bytes of a payload in the order they go out, `P[0]` first (R54). -/
def Payload.bytes (P : Payload) : List Byte := P.sel :: P.par

/-- `|P|`, never 0 (R55, R121). -/
def Payload.length (P : Payload) : Nat := P.par.length + 1

/-- `RESULT.KIND` (R24, R78). -/
inductive Kind where
  | ok
  | busFault
  | pinFault
  | timeout
  | precondition
  | illegalCommand
deriving DecidableEq, Repr

/-- The lifecycle states of `LIFE` (R22, R77). -/
inductive Life where
  | uninitialized
  | reset
  | poweredOn
  | initialized
  | writing
  | sleeping
  | failed
deriving DecidableEq, Repr

/-- `RESULT.PIN` (R24, R80). `BUSY` has no code: reading it cannot fail. -/
inductive PinTag where
  | noPin
  | cs1
  | cs2
  | rst
deriving DecidableEq, Repr

/-- `RESULT.STAGE` (R24, R79): the host operation that produced the result. -/
inductive Stage where
  | noStage
  | reset
  | waitBusy
  | powerOn
  | init
  | write
  | sleep
deriving DecidableEq, Repr

/-- A host operation that can be in flight (`RUN.OP`, R25). STAT is never started (R108), so it is
not among them. -/
inductive HostOp where
  | reset
  | waitBusy
  | powerOn
  | init
  | write (P : Payload)
  | sleep
deriving DecidableEq, Repr

/-- The four micro-operations (R85), the alphabet of `RUN.MP`. -/
inductive MicroOp where
  | set (p : Pin) (l : Level)
  | xfer (P : Payload)
  | dly (n : Nat)
  | poll
deriving DecidableEq, Repr

/-- Every row of spec/opcode_table.json: the seven host operations (R72), the two reserved ranges
of command frames (R74), the response frame (R76), the four fixed panel payloads (R82) and the four
micro-operations (R85). -/
inductive Instr where
  | stat
  | reset
  | waitBusy
  | powerOn
  | init
  | write (P : Payload)
  | sleep
  | reserved07 (rest : List Byte)
  | reservedHigh (first : Byte) (rest : List Byte)
  | resp (k : Kind) (l : Life) (p : PinTag) (st : Stage)
  | pon
  | drf
  | pof
  | dslp
  | set (p : Pin) (l : Level)
  | xfer (P : Payload)
  | dly (n : Nat)
  | poll
deriving DecidableEq, Repr

/-- The instruction a micro-operation of a micro-program is. -/
def MicroOp.instr : MicroOp → Instr
  | .set p l => .set p l
  | .xfer P => .xfer P
  | .dly n => .dly n
  | .poll => .poll

end Sys2Proof
end

