-- ==== Sys2Proof/Config.lean ====
section
/-! DEFINITION. What is fixed at construction (00_scope.md R6) and what the spec leaves open: the
configuration `CFG` (R21), the other parameters, their values in the reset state, and the free
values of the Bus Port environment (R12). -/

namespace Sys2Proof

/-- The Bus Port's answer to a `PinSet` or a `BusWrite` (R10). -/
inductive Answer where
  | ok
  | fault
deriving DecidableEq, Repr, Inhabited

/-- `CFG` (R21): sampled at construction, written by nothing afterwards. -/
structure Cfg where
  /-- `poll_rate_ms`, the sleep between two reads of the busy pin. -/
  pollRateMs : Nat
  /-- `READY_LEVEL`, the level of `BUSY` that means ready (R52). -/
  readyLevel : Level
  /-- `MAX_POLLS`: `none`, or the bound of a busy wait (R145). -/
  maxPolls : Option Nat
  /-- `STRICT`: whether admission enforces the lifecycle (R170). -/
  strict : Bool
deriving DecidableEq, Repr

/-- The parameters of R6 that are not in `CFG`: fixed at construction (R230). -/
structure Params where
  /-- `T_RESET_MS`, the delay between the edges of the reset pulse train (R130). -/
  tResetMs : Nat
  /-- `T_PON_SETTLE_MS`, the settling delay after PON (R150). -/
  tPonSettleMs : Nat
  /-- `T_SLEEP_MS`, the delay after DSLP (R178). -/
  tSleepMs : Nat
  /-- `DSLP_PAYLOAD` (R82). -/
  dslpPayload : Payload
  /-- `PON_CMD`, OPEN. -/
  ponCmd : Byte
  /-- `DRF_CMD`, OPEN. -/
  drfCmd : Byte
  /-- `POF_CMD`, OPEN. -/
  pofCmd : Byte
  /-- `INIT_TABLE`, OPEN (R162). -/
  initTable : List Payload
  /-- `MAX_PAYLOAD`, OPEN, at least 10. -/
  maxPayload : Nat
deriving DecidableEq, Repr

namespace Config

/-! OPEN parameters at reset: no source gives a value, so each is a constant with no body (log
entry 2). -/

/-- `PON_CMD` of the reset state. -/
opaque ponCmd : Byte
/-- `DRF_CMD` of the reset state. -/
opaque drfCmd : Byte
/-- `POF_CMD` of the reset state. -/
opaque pofCmd : Byte
/-- By how much `MAX_PAYLOAD` of the reset state exceeds 10, its least value (R6). -/
opaque extraPayload : Nat
/-- The table `INIT_TABLE` of the reset state is cut from (`initTable`). -/
opaque initEntries : List Payload

/-! Free values of the environment (R12), applied to the number of answers taken so far (log
entry 5). -/

/-- What the Bus Port answers to a `PinSet` or `BusWrite` where the state lists no answer. -/
opaque freeAnswer : Nat → Answer
/-- The level of the `BUSY` pin at a `BusyRead` where the state lists no level. -/
opaque freeLevel : Nat → Level

/-! Free values of the payload buffer (R27, R31: unspecified), applied to the number of events so far
(log entry 28). -/

/-- The byte at an index of `PBUF` where no payload put one. -/
opaque freeBuffer : Nat → Nat → Byte
/-- The content of `PLEN` outside a split write. -/
opaque freeLength : Nat → Nat

/-- `MAX_PAYLOAD` of the reset state: any number of at least 10 (R6, R7). -/
def maxPayload : Nat := extraPayload + 10

/-- The payload cut to at most `m` bytes (`m ≥ 1`). -/
def cut (m : Nat) (P : Payload) : Payload := ⟨P.sel, P.par.take (m - 1)⟩

/-- `INIT_TABLE` of the reset state: any list of payloads no longer than `MAX_PAYLOAD` (R7). -/
def initTable : List Payload := initEntries.map (cut maxPayload)

/-- `CFG` after construction where the host supplies nothing (R31; D5, D9, D10; log entry 3). -/
def cfg : Cfg where
  pollRateMs := 5
  readyLevel := .high
  maxPolls := none
  strict := true

/-- The parameters after construction: the document's constants (R6; log entry 4), the OPEN ones
without a value (log entry 2). -/
def params : Params where
  tResetMs := 3
  tPonSettleMs := 50
  tSleepMs := 2000
  dslpPayload := ⟨0x07, [0xA5]⟩
  ponCmd := ponCmd
  drfCmd := drfCmd
  pofCmd := pofCmd
  initTable := initTable
  maxPayload := maxPayload

end Config

end Sys2Proof
end

