-- ==== Sys2Proof/Machine/State.lean ====
section
/-! DEFINITION. The state of the sequencer (10_state.md R20), the events it emits (00_scope.md R10),
the inputs it reads from the host and the Bus Port environment, the reasons it can stop, and the
state after construction (R31). The machine has no memory (20_memory.md R59). -/

namespace Sys2Proof.Machine

/-- What an output latch is known to drive (R28): `H`, `L`, or `X`, not known which of the two. -/
inductive Latch where
  | high
  | low
  | unknown
deriving DecidableEq, Repr

/-- `PINS` (R28), one latch per output pin. -/
structure Pins where
  cs1 : Latch
  cs2 : Latch
  rst : Latch
deriving DecidableEq, Repr

/-- `RESULT` (R24): the outcome of the last operation other than STAT. -/
structure Result where
  kind : Kind
  pin : PinTag
  stage : Stage
deriving DecidableEq, Repr

/-- `POLLPH` (R26): whether the next event of the busy wait is the read or the sleep. -/
inductive PollPhase where
  | read
  | sleep
deriving DecidableEq, Repr

/-- The record `RUN` holds while an operation is in flight (R20, R25, R26). -/
structure RunRec where
  /-- `OP`, the host operation in flight. -/
  op : HostOp
  /-- `MP`, its micro-program, fixed at acceptance. -/
  mp : List MicroOp
  /-- `UPC`, the index of the next micro-operation. -/
  upc : Nat
  /-- `POLLPH`. -/
  pollPh : PollPhase
  /-- `POLLS`, the `notready` answers of the current wait. -/
  polls : Nat
deriving DecidableEq, Repr

/-- `RUN` (R20). -/
inductive Run where
  | idle
  | busy (r : RunRec)
deriving DecidableEq, Repr

/-- The events of the trace (R11): the four Bus Port calls (R10) and the two host events (R70, R76). -/
inductive Event where
  | pinSet (p : Pin) (l : Level)
  | busWrite (P : Payload)
  | busyRead
  | delay (n : Nat)
  | cmd (F : Frame)
  | resp (b0 b1 : Byte)
deriving DecidableEq, Repr

/-- What the host and the Bus Port environment will do next: the model's own fields (log entries 5
and 6). -/
structure Env where
  /-- Frames the host presents, in order, and the sequencer has not taken yet (R180). -/
  frames : List Frame
  /-- The coming answers to `PinSet` and `BusWrite`. -/
  answers : List Answer
  /-- The coming levels of the `BUSY` pin, one per `BusyRead` (R148 (a)). -/
  levels : List Level
  /-- How many answers and levels have been taken: the argument of the free values. -/
  draws : Nat
deriving DecidableEq, Repr

/-- The whole machine: `(CFG, LIFE, RESULT, RUN, PINS)` (R20), the parameters fixed at construction
(R6, R230), the trace (R11) and the inputs. -/
structure State where
  cfg : Cfg
  params : Params
  life : Life
  result : Result
  run : Run
  pins : Pins
  trace : List Event
  env : Env
deriving DecidableEq, Repr

/-- Reasons to stop with a fault: the states in which R100 enables no step. A run from a state that
meets `Inv` never stops (Sys2Proof/Safety.lean). The faults of the spec (R200) are no stops: they
are the abort of R206, a next state. -/
inductive Fault where
  /-- Raised by SET, XFER, DLY, POLL and by the panel payloads when `RUN = Idle`: a micro step is
  enabled only while an operation is in flight (R100). Safe: the hardware takes no such step. -/
  | noOperationInFlight
  /-- Raised by `step` when `UPC > |MP|`, outside the range of R25: no step is enabled (R100). Safe:
  no run reaches such a state. -/
  | upcBeyondProgram
deriving DecidableEq, Repr

/-- Reasons to refuse. -/
inductive Refusal where
  /-- Raised by `exec` for an instruction without a meaning. Safe. No arm raises it. -/
  | notModelled (mnemonic : String)
  /-- Raised by `construct` on a parameter set that is not well-formed (R7, D23). Safe: the spec
  gives such a sequencer no behaviour. -/
  | illFormedParameters
deriving DecidableEq, Repr

/-- The state after construction with the configuration `c` and the parameters `p` (R31, R230): all
output latches `X`, empty trace, nothing in flight, and no input given yet. -/
def State.constructed (c : Cfg) (p : Params) : State where
  cfg := c
  params := p
  life := .uninitialized
  result := ⟨.ok, .noPin, .noStage⟩
  run := .idle
  pins := ⟨.unknown, .unknown, .unknown⟩
  trace := []
  env := ⟨[], [], [], 0⟩

/-- The machine right after construction with the configuration of R31. -/
def State.reset : State := State.constructed Config.cfg Config.params

end Sys2Proof.Machine
end

