-- ==== Sys2Proof/Machine/Flags.lean ====
section
/-! DEFINITION. The status registers `LIFE` and `RESULT` (the only status flags, R24): the admission
rule that reads `LIFE` (46_facade_ops.md R170), the lifecycle transitions (R171), the stage of an
operation (R79), and the result each fault records (60_exceptions.md R200). -/

namespace Sys2Proof.Machine

/-- The stage of a result is the host operation, not the sub-block that met the fault (R79). -/
def stage : HostOp → Stage
  | .reset => .reset
  | .waitBusy => .waitBusy
  | .powerOn => .powerOn
  | .init => .init
  | .write _ => .write
  | .sleep => .sleep

/-- `admitted(op, LIFE, STRICT)` (R170). STAT is always admitted (R101) and is no `HostOp`. -/
def admitted (op : HostOp) (life : Life) (strict : Bool) : Bool :=
  if strict then
    match op with
    | .reset => true
    | .waitBusy => decide (life ≠ .failed)
    | .powerOn => decide (life ≠ .failed)
    | .init => true
    | .write _ => decide (life = .initialized)
    | .sleep => decide (life = .initialized)
  else true

/-- `LIFE` while an accepted operation is in flight (R23, R101): only a WRITE accepted from
`Initialized` changes it. -/
def lifeInFlight (op : HostOp) (life : Life) : Life :=
  match op with
  | .reset => life
  | .waitBusy => life
  | .powerOn => life
  | .init => life
  | .write _ => if life = .initialized then .writing else life
  | .sleep => life

/-- `post(op, s)` (R171): `LIFE` after the operation completed with `Ok`. -/
def post (op : HostOp) (life : Life) : Life :=
  match op with
  | .reset => .reset
  | .waitBusy => life
  | .powerOn => .poweredOn
  | .init => .initialized
  | .write _ => if life = .writing then .initialized else life
  | .sleep => .sleeping

/-- The faults a micro step can raise (R200, class "aborts"). -/
inductive MicroFault where
  | busFault
  | pinFault (t : PinTag)
  | timeout
deriving DecidableEq, Repr

/-- `kind(F)` (R206). -/
def MicroFault.kind : MicroFault → Kind
  | .busFault => .busFault
  | .pinFault _ => .pinFault
  | .timeout => .timeout

/-- `pin(F)` (R206): none unless the fault is a pin fault. -/
def MicroFault.pin : MicroFault → PinTag
  | .busFault => .noPin
  | .pinFault t => t
  | .timeout => .noPin

/-- What an abort records (R206). -/
def faultResult (f : MicroFault) (op : HostOp) : Result := ⟨f.kind, f.pin, stage op⟩

/-- What a completed operation records (R106). -/
def okResult (op : HostOp) : Result := ⟨.ok, .noPin, stage op⟩

end Sys2Proof.Machine
end

