-- ==== Sys2Proof/WellFormed.lean ====
section
/-! DEFINITION. Well-formed parameter sets (R7) and well-formed instructions: the operand ranges
the spec gives (R71, R74, R76, R85, R103, R104). -/

namespace Sys2Proof

/-- R7. Payloads are non-empty by their type; what is left is the bounds. -/
abbrev Params.WellFormed (c : Cfg) (p : Params) : Prop :=
  1 ≤ c.pollRateMs ∧ 1 ≤ p.tResetMs ∧ 1 ≤ p.tPonSettleMs ∧ 1 ≤ p.tSleepMs ∧
  (∀ P ∈ p.initTable, P.length ≤ p.maxPayload) ∧
  (∀ n ∈ c.maxPolls, 1 ≤ n) ∧
  10 ≤ p.maxPayload ∧ p.dslpPayload.length ≤ p.maxPayload

/-- The operand ranges of a micro-operation (R85): a payload of at most `MAX_PAYLOAD` bytes (R103),
a delay of at least one millisecond (R104). -/
def MicroOp.wf (p : Params) : MicroOp → Bool
  | .set _ _ => true
  | .xfer P => decide (P.length ≤ p.maxPayload)
  | .dly n => decide (1 ≤ n)
  | .poll => true

/-- The operand ranges of an instruction. WRITE: `1 ≤ |P| ≤ MAX_PAYLOAD` (R71). RESERVED_HIGH: the
first byte has a non-zero bit in 7:3 (R74). RESP: `Writing` never appears (R77), and a pin is named
exactly by a pin fault (R24). -/
def Instr.wf (p : Params) : Instr → Bool
  | .stat => true
  | .reset => true
  | .waitBusy => true
  | .powerOn => true
  | .init => true
  | .write P => decide (P.length ≤ p.maxPayload)
  | .sleep => true
  | .reserved07 _ => true
  | .reservedHigh b _ => decide (8 ≤ b.toNat)
  | .resp k l t _ => decide (l ≠ .writing) && decide (k = .pinFault ↔ t ≠ .noPin)
  | .pon => true
  | .drf => true
  | .pof => true
  | .dslp => true
  | .set _ _ => true
  | .xfer P => decide (P.length ≤ p.maxPayload)
  | .dly n => decide (1 ≤ n)
  | .poll => true

end Sys2Proof
end

