-- ==== Sys2Proof/Decode.lean ====
section
/-! DEFINITION. The codec: command frames (R70 to R75), response frames (R76 to R80), panel payloads
(R81, R82); first the decoders, total on any bytes and rejecting by name, then the encoder, written
from the same tables. The micro-operations have no binary form (R85). -/

namespace Sys2Proof

/-- `b[7:3]`, which a command frame's first byte must have 0 (R71). -/
def zeroField (b : Byte) : BitVec 5 := b.extractLsb' 3 5

/-- `b[2:0]`, the operation code of a command frame's first byte (R71). -/
def opcField (b : Byte) : BitVec 3 := b.extractLsb' 0 3

/-- Why a frame is no instruction. The first two are `Illegal`, the last two `BadPayload` (R73). -/
inductive DecodeError where
  | emptyFrame
  | extraBytes
  | emptyPayload
  | payloadTooLong
deriving DecidableEq, Repr

/-- What decoding a command frame gives: an instruction, or the reason there is none. -/
inductive Decoded where
  | instr (i : Instr)
  | rejected (e : DecodeError)
deriving DecidableEq, Repr

/-- An operation of format H0 stands alone in its frame (R71). -/
def decodeH0 (i : Instr) : List Byte → Decoded
  | [] => .instr i
  | _ :: _ => .rejected .extraBytes

/-- The operand of WRITE: the frame without its first byte (R75), 1 to `MAX_PAYLOAD` bytes. -/
def decodeHW (maxPayload : Nat) : List Byte → Decoded
  | [] => .rejected .emptyPayload
  | sel :: par =>
    if par.length + 1 ≤ maxPayload then .instr (.write ⟨sel, par⟩) else .rejected .payloadTooLong

/-- R73. The reserved codes decode to instructions of their own (RESERVED_07, RESERVED_HIGH), whose
meaning is the rejection R73 calls `Illegal` (log entry 14). -/
def decodeFrame (maxPayload : Nat) : Frame → Decoded
  | [] => .rejected .emptyFrame
  | b :: rest =>
    if zeroField b = 0 then
      match (opcField b).toNat with
      | 0 => decodeH0 .stat rest
      | 1 => decodeH0 .reset rest
      | 2 => decodeH0 .waitBusy rest
      | 3 => decodeH0 .powerOn rest
      | 4 => decodeH0 .init rest
      | 5 => decodeHW maxPayload rest
      | 6 => decodeH0 .sleep rest
      | _ => .instr (.reserved07 rest)
    else .instr (.reservedHigh b rest)

/-- Lifecycle codes (R77). -/
def lifeCode : Life → BitVec 3
  | .uninitialized => 0
  | .reset => 1
  | .poweredOn => 2
  | .initialized => 3
  | .writing => 4
  | .sleeping => 5
  | .failed => 6

/-- Result kind codes (R78). -/
def kindCode : Kind → BitVec 4
  | .ok => 0
  | .busFault => 1
  | .pinFault => 2
  | .timeout => 3
  | .precondition => 4
  | .illegalCommand => 5

/-- Stage codes (R79). -/
def stageCode : Stage → BitVec 3
  | .noStage => 0
  | .reset => 1
  | .waitBusy => 2
  | .powerOn => 3
  | .init => 4
  | .write => 5
  | .sleep => 6

/-- Pin codes (R80). -/
def pinCode : PinTag → BitVec 2
  | .noPin => 0
  | .cs1 => 1
  | .cs2 => 2
  | .rst => 3

/-- The lifecycle state of a code; 7 is never produced (R77). -/
def lifeOf (c : BitVec 3) : Option Life :=
  match c.toNat with
  | 0 => some .uninitialized
  | 1 => some .reset
  | 2 => some .poweredOn
  | 3 => some .initialized
  | 4 => some .writing
  | 5 => some .sleeping
  | 6 => some .failed
  | _ => none

/-- The kind of a code; 6 to 15 are never produced (R78). -/
def kindOf (c : BitVec 4) : Option Kind :=
  match c.toNat with
  | 0 => some .ok
  | 1 => some .busFault
  | 2 => some .pinFault
  | 3 => some .timeout
  | 4 => some .precondition
  | 5 => some .illegalCommand
  | _ => none

/-- The stage of a code; 7 is never produced (R79). -/
def stageOf (c : BitVec 3) : Option Stage :=
  match c.toNat with
  | 0 => some .noStage
  | 1 => some .reset
  | 2 => some .waitBusy
  | 3 => some .powerOn
  | 4 => some .init
  | 5 => some .write
  | 6 => some .sleep
  | _ => none

/-- The pin of a code (R80). -/
def pinOf (c : BitVec 2) : PinTag :=
  match c.toNat with
  | 0 => .noPin
  | 1 => .cs1
  | 2 => .cs2
  | _ => .rst

/-- First byte of a response frame (R76): kind in 7:4, bit 3 zero, life in 2:0. -/
def respByte0 (k : Kind) (l : Life) : Byte := kindCode k ++ 0#1 ++ lifeCode l

/-- Second byte of a response frame (R76): bits 7:6 zero, pin in 5:4, bit 3 zero, stage in 2:0. -/
def respByte1 (p : PinTag) (st : Stage) : Byte := 0#2 ++ pinCode p ++ 0#1 ++ stageCode st

/-- The response frame of two bytes (R76). Codes that are never produced and zero fields that are
not zero are refused (93_implementation_defined.md U19). -/
def decodeResp : Frame → Option Instr
  | [b0, b1] =>
    if b0.extractLsb' 3 1 = 0 ∧ b1.extractLsb' 3 1 = 0 ∧ b1.extractLsb' 6 2 = 0 then
      match kindOf (b0.extractLsb' 4 4), lifeOf (b0.extractLsb' 0 3),
        stageOf (b1.extractLsb' 0 3) with
      | some k, some l, some st => some (.resp k l (pinOf (b1.extractLsb' 4 2)) st)
      | _, _, _ => none
    else none
  | _ => none

/-- PON (R82): one byte, no parameter (R154). -/
def ponPayload (p : Params) : Payload := ⟨p.ponCmd, []⟩

/-- DRF (R82): a trailing zero parameter byte. -/
def drfPayload (p : Params) : Payload := ⟨p.drfCmd, [0x00]⟩

/-- POF (R82): a trailing zero parameter byte. -/
def pofPayload (p : Params) : Payload := ⟨p.pofCmd, [0x00]⟩

/-- Which of the four fixed payloads (R82) a panel payload is. The sequencer itself never does this:
it does not interpret a selector (R59). -/
def decodePanel (p : Params) (F : Frame) : Option Instr :=
  if F = p.dslpPayload.bytes then some .dslp
  else if F = (drfPayload p).bytes then some .drf
  else if F = (pofPayload p).bytes then some .pof
  else if F = (ponPayload p).bytes then some .pon
  else none

/-- The frame of an H0 operation with code `c` (R71, R72). -/
def frameH0 (c : BitVec 3) : Frame := [0#5 ++ c]

/-- The frame of WRITE (R71): `[0x05] ++ P`. -/
def frameHW (P : Payload) : Frame := (0#5 ++ 5#3 : Byte) :: P.bytes

/-- The bytes of an instruction. A micro-operation has none (R85). -/
def encode (p : Params) : Instr → Option Frame
  | .stat => some (frameH0 0)
  | .reset => some (frameH0 1)
  | .waitBusy => some (frameH0 2)
  | .powerOn => some (frameH0 3)
  | .init => some (frameH0 4)
  | .write P => some (frameHW P)
  | .sleep => some (frameH0 6)
  | .reserved07 rest => some (frameH0 7 ++ rest)
  | .reservedHigh b rest => some (b :: rest)
  | .resp k l t st => some [respByte0 k l, respByte1 t st]
  | .pon => some (ponPayload p).bytes
  | .drf => some (drfPayload p).bytes
  | .pof => some (pofPayload p).bytes
  | .dslp => some p.dslpPayload.bytes
  | .set _ _ => none
  | .xfer _ => none
  | .dly _ => none
  | .poll => none

/-- The channel an instruction's bytes travel on: command frames go from the host to the sequencer
(R70), response frames back (R76), payloads to the panel (R81); micro-operations are internal (R85). -/
inductive Channel where
  | command
  | response
  | panel
  | internal
deriving DecidableEq, Repr

/-- The channel of each instruction. -/
def Instr.channel : Instr → Channel
  | .stat => .command
  | .reset => .command
  | .waitBusy => .command
  | .powerOn => .command
  | .init => .command
  | .write _ => .command
  | .sleep => .command
  | .reserved07 _ => .command
  | .reservedHigh _ _ => .command
  | .resp _ _ _ _ => .response
  | .pon => .panel
  | .drf => .panel
  | .pof => .panel
  | .dslp => .panel
  | .set _ _ => .internal
  | .xfer _ => .internal
  | .dly _ => .internal
  | .poll => .internal

/-- The bytes of an opcode-table word of `8 * n` bits, the first byte its most significant one: so
the table numbers its rows of two bytes (DSLP is `0x07A5`, RESP has `b0` in 15:8; log entry 15). -/
def wordBytes : Nat → Nat → Frame
  | 0, _ => []
  | n + 1, w => wordBytes n (w / 256) ++ [BitVec.ofNat 8 w]

/-- The command frame of an opcode-table word: its bytes; a WRITE of which the table gives the
opcode only has one payload byte, zero (log entry 15). -/
def tableFrame (nbits w : Nat) : Frame :=
  match wordBytes ((nbits + 7) / 8) w with
  | [b] => if b = 0x05 then [b, 0x00] else [b]
  | F => F

/-- The instruction the decoders read from an opcode-table word. Rows of one byte are command frames;
rows of two bytes are response frames or panel payloads; anything else is a command frame (log
entry 15). -/
def decodeTableWord (nbits w : Nat) : Option Instr :=
  let F := tableFrame nbits w
  let asCommand := match decodeFrame Config.maxPayload F with
    | .instr i => some i
    | .rejected _ => none
  match F with
  | [_, _] =>
    if nbits ≤ 8 then asCommand
    else (decodeResp F).or ((decodePanel Config.params F).or asCommand)
  | _ => asCommand

end Sys2Proof
end

