-- ==== Sys2Proof/Machine/Operands.lean ====
section
/-! DEFINITION. Operand forms: the command tables (30_encoding.md R83), the macro-expansions
(40_microengine.md R107), the micro-program of each host operation (R108), and what a pin or a level
operand of SET denotes. -/

namespace Sys2Proof.Machine

/-- The latch value of a driven level. -/
def latchOf : Level → Latch
  | .high => .high
  | .low => .low

/-- The tag `RESULT.PIN` gives a pin (R24). -/
def pinTag : Pin → PinTag
  | .cs1 => .cs1
  | .cs2 => .cs2
  | .rst => .rst

/-- `split(P)` (R107, R120): the payload once under each chip-select. The primary select is raised
before the secondary one at steps 2, 3 and 6, 7 (decision D8; log entry 17). -/
def split (P : Payload) : List MicroOp :=
  [.set .cs1 .low, .xfer P, .set .cs1 .high, .set .cs2 .high,
   .set .cs2 .low, .xfer P, .set .cs1 .high, .set .cs2 .high]

/-- `reset_seq` (R107, R130): high, low, high, low, a delay between each two and none at the end. -/
def resetSeq (p : Params) : List MicroOp :=
  [.set .rst .high, .dly p.tResetMs, .set .rst .low, .dly p.tResetMs,
   .set .rst .high, .dly p.tResetMs, .set .rst .low]

/-- An entry of a command table (R83): split write, then the wait, then the delay if it is not 0. -/
structure Entry where
  payload : Payload
  wait : Bool
  dly : Nat
deriving DecidableEq, Repr

/-- The busy wait of an entry, if it has one (R107). -/
def waitOps (w : Bool) : List MicroOp := if w then [.poll] else []

/-- The delay of an entry, if it has one (R107). -/
def dlyOps (d : Nat) : List MicroOp := if 0 < d then [.dly d] else []

/-- `entry(P, w, d)` (R107). -/
def entryOps (e : Entry) : List MicroOp := split e.payload ++ waitOps e.wait ++ dlyOps e.dly

/-- `issue_table(T)` (R107): the entries in table order. -/
def issueTable : List Entry → List MicroOp
  | [] => []
  | e :: t => entryOps e ++ issueTable t

/-- `POWER_TABLE` (R83): PON and DRF with a wait, POF without (R152). -/
def powerTable (p : Params) : List Entry :=
  [⟨ponPayload p, true, p.tPonSettleMs⟩, ⟨drfPayload p, true, 0⟩, ⟨pofPayload p, false, 0⟩]

/-- `SLEEP_TABLE` (R83). -/
def sleepTable (p : Params) : List Entry := [⟨p.dslpPayload, false, p.tSleepMs⟩]

/-- `INIT_ENTRIES` (R83): no wait between the register writes (R163). -/
def initEntries (p : Params) : List Entry := p.initTable.map fun P => ⟨P, false, 0⟩

/-- `mp(op)` (R108). INIT holds one reset pulse train (R161) and one busy wait (R163). -/
def program (p : Params) : HostOp → List MicroOp
  | .reset => resetSeq p
  | .waitBusy => [.poll]
  | .powerOn => issueTable (powerTable p)
  | .init => resetSeq p ++ [.poll] ++ issueTable (initEntries p)
  | .write P => split P
  | .sleep => issueTable (sleepTable p)

end Sys2Proof.Machine
end

