-- ==== Sys2Proof/Machine/Ops.lean ====
section
/-! DEFINITION. The named operations over the state: the output latches, the trace and the Bus Port
environment, the response, the accept step's two ends (start and reject), the complete step, and the
abort, which is this machine's exception entry (60_exceptions.md R206). There is no return from it
and nothing is restored (R208): the host recovers by RESET or INIT. -/

namespace Sys2Proof.Machine

/-- `PINS[p]`. -/
def Pins.get (ps : Pins) : Pin → Latch
  | .cs1 => ps.cs1
  | .cs2 => ps.cs2
  | .rst => ps.rst

/-- `PINS[p] <- l`. -/
def Pins.put (ps : Pins) (p : Pin) (l : Latch) : Pins :=
  match p with
  | .cs1 => { ps with cs1 := l }
  | .cs2 => { ps with cs2 := l }
  | .rst => { ps with rst := l }

namespace State

/-- Append an event to the trace (R10, R11). -/
def emit (s : State) (e : Event) : State := { s with trace := s.trace ++ [e] }

/-- `PINS[p] <- l` (R28). -/
def setPin (s : State) (p : Pin) (l : Latch) : State := { s with pins := s.pins.put p l }

/-- `LIFE <- l`. -/
def setLife (s : State) (l : Life) : State := { s with life := l }

/-- `RESULT <- r`. -/
def setResult (s : State) (r : Result) : State := { s with result := r }

/-- `RUN <- r`. -/
def setRun (s : State) (r : Run) : State := { s with run := r }

/-- The environment's answer to a `PinSet` or `BusWrite` (R12): the next listed one, else a free
value. -/
def answer (s : State) : Answer :=
  match s.env.answers with
  | a :: _ => a
  | [] => Config.freeAnswer s.env.draws

/-- The answer has been taken. -/
def takeAnswer (s : State) : State :=
  { s with env := { s.env with answers := s.env.answers.tail, draws := s.env.draws + 1 } }

/-- The level on the `BUSY` pin at a `BusyRead` (R52): the next listed one, else a free value. -/
def level (s : State) : Level :=
  match s.env.levels with
  | l :: _ => l
  | [] => Config.freeLevel s.env.draws

/-- The level has been read; it is never latched (R20). -/
def takeLevel (s : State) : State :=
  { s with env := { s.env with levels := s.env.levels.tail, draws := s.env.draws + 1 } }

/-- The Bus Port's `is_ready()` (R52): the level on `BUSY` equals `READY_LEVEL`. -/
def ready (s : State) : Bool := decide (s.level = s.cfg.readyLevel)

/-- `host-emit Resp(b0, b1)` for a response frame with the given fields (R76). -/
def sendResp (s : State) (k : Kind) (l : Life) (p : PinTag) (st : Stage) : State :=
  s.emit (.resp (respByte0 k l) (respByte1 p st))

/-- `respond` (R101): the response frame reports `RESULT` and `LIFE` (R76). -/
def respond (s : State) : State := s.sendResp s.result.kind s.life s.result.pin s.result.stage

/-- A rejection (R101, R204, R205): record it and respond; no port event, `LIFE` and `PINS` as they
are, `RUN` stays `Idle`. -/
def reject (s : State) (k : Kind) (st : Stage) : State := (s.setResult ⟨k, .noPin, st⟩).respond

/-- Start an admitted operation (R101). -/
def start (s : State) (op : HostOp) : State :=
  (s.setLife (lifeInFlight op s.life)).setRun (.busy ⟨op, program s.params op, 0, .read, 0⟩)

/-- The accept step of a decoded operation other than STAT (R101). -/
def acceptOp (s : State) (op : HostOp) : State :=
  if admitted op s.life s.cfg.strict then s.start op else s.reject .precondition (stage op)

/-- The abort (R206): record the fault, `LIFE <- Failed`, discard the rest of the micro-program,
respond; nothing else. -/
def abort (s : State) (f : MicroFault) (op : HostOp) : State :=
  (((s.setResult (faultResult f op)).setLife .failed).setRun .idle).respond

/-- The complete step (R106). -/
def complete (s : State) (op : HostOp) : State :=
  (((s.setLife (post op s.life)).setResult (okResult op)).setRun .idle).respond

/-- `UPC <- UPC + 1` (R25). -/
def advance (s : State) (r : RunRec) : State := s.setRun (.busy { r with upc := r.upc + 1 })

/-- Take the frame `F` from the host and record `Cmd(F)` (R70, R101); `rest` is what stays held. -/
def takeFrame (s : State) (F : Frame) (rest : List Frame) : State :=
  { s with env := { s.env with frames := rest }, trace := s.trace ++ [.cmd F] }

/-- A frame presented while an operation is in flight is held, not dropped and not rejected (R180). -/
def holdFrame (s : State) (F : Frame) : State :=
  { s with env := { s.env with frames := s.env.frames ++ [F] } }

end State

/-- A host command acts when `RUN = Idle`; otherwise its frame is held (R180; log entry 7). -/
def whenIdle (F : Frame) (act : State → State) (s : State) : State :=
  match s.run with
  | .idle => act s
  | .busy _ => s.holdFrame F

/-- A micro-operation acts on the operation in flight; with none in flight no micro step is enabled
(R100; log entry 8). -/
def inFlight (act : RunRec → State → State) (s : State) : Host.Outcome State Fault Refusal :=
  match s.run with
  | .idle => .fault .noOperationInFlight
  | .busy r => .next (act r s)

/-- `emit PinSet(p, l) -> r` and what follows (R102). -/
def pinSetOp (p : Pin) (l : Level) (r : RunRec) (s : State) : State :=
  let t := (s.emit (.pinSet p l)).takeAnswer
  match s.answer with
  | .ok => (t.setPin p (latchOf l)).advance r
  | .fault => (t.setPin p .unknown).abort (.pinFault (pinTag p)) r.op

/-- `emit BusWrite(P) -> r` and what follows (R103). -/
def busWriteOp (P : Payload) (r : RunRec) (s : State) : State :=
  let t := (s.emit (.busWrite P)).takeAnswer
  match s.answer with
  | .ok => t.advance r
  | .fault => t.abort .busFault r.op

/-- `emit Delay(n)`; it cannot fail (R104, R53). -/
def delayOp (n : Nat) (r : RunRec) (s : State) : State := (s.emit (.delay n)).advance r

/-- POLL, read phase (R144). -/
def pollRead (r : RunRec) (s : State) : State :=
  let t := (s.emit .busyRead).takeLevel
  if s.ready then t.advance { r with polls := 0 }
  else t.setRun (.busy { r with polls := r.polls + 1, pollPh := .sleep })

/-- Whether the wait has reached `MAX_POLLS` (R145). -/
def boundReached (maxPolls : Option Nat) (polls : Nat) : Bool :=
  match maxPolls with
  | some n => decide (n ≤ polls)
  | none => false

/-- POLL, sleep phase (R145): the sleep comes before the bound is looked at (decision D10; log
entry 18). -/
def pollSleep (r : RunRec) (s : State) : State :=
  let t := s.emit (.delay s.cfg.pollRateMs)
  if boundReached s.cfg.maxPolls r.polls then t.abort .timeout r.op
  else t.setRun (.busy { r with pollPh := .read })

/-- POLL (R144, R145). -/
def pollOp (r : RunRec) (s : State) : State :=
  match r.pollPh with
  | .read => pollRead r s
  | .sleep => pollSleep r s

/-- Construction (R230): refused on an ill-formed parameter set (R7, D23). -/
def construct (c : Cfg) (p : Params) : Host.Outcome State Fault Refusal :=
  if p.WellFormed c then .next (State.constructed c p) else .refused .illFormedParameters

end Sys2Proof.Machine
end

