-- ==== Sys2Proof/Machine/Facade.lean ====
section
/-! DEFINITION. The Driver Facade's host operations STAT, RESET, WAIT_BUSY, WRITE and SLEEP
(46_facade_ops.md), and the reserved command frames (30_encoding.md R74). -/

namespace Sys2Proof.Machine

/-- STAT (R172): respond, and nothing else. -/
def execStat (s : State) : Host.Outcome State Fault Refusal :=
  .next (whenIdle (frameH0 0) State.respond s)

/-- RESET (R173): admitted in any state; runs `reset_seq`. -/
def execReset (s : State) : Host.Outcome State Fault Refusal :=
  .next (whenIdle (frameH0 1) (fun t => t.acceptOp .reset) s)

/-- WAIT_BUSY (R174): runs `[POLL]`. -/
def execWaitBusy (s : State) : Host.Outcome State Fault Refusal :=
  .next (whenIdle (frameH0 2) (fun t => t.acceptOp .waitBusy) s)

/-- WRITE (R177): one split write; an over-long payload is rejected before the lifecycle is looked at
(R101, R204). -/
def execWrite (P : Payload) (s : State) : Host.Outcome State Fault Refusal :=
  .next (whenIdle (frameHW P) (fun t =>
    if P.length ≤ t.params.maxPayload then t.acceptOp (.write P)
    else t.reject .precondition .write) s)

/-- SLEEP (R178): the deep-sleep command, then the fixed delay. -/
def execSleep (s : State) : Host.Outcome State Fault Refusal :=
  .next (whenIdle (frameH0 6) (fun t => t.acceptOp .sleep) s)

/-- A frame that begins with the unassigned code 7 (R74): IllegalCommand, stage none (R205). -/
def execReserved07 (rest : List Byte) (s : State) : Host.Outcome State Fault Refusal :=
  .next (whenIdle (frameH0 7 ++ rest) (fun t => t.reject .illegalCommand .noStage) s)

/-- A frame whose first byte has a non-zero bit in 7:3 (R74): IllegalCommand, stage none (R205). -/
def execReservedHigh (first : Byte) (rest : List Byte) (s : State) :
    Host.Outcome State Fault Refusal :=
  .next (whenIdle (first :: rest) (fun t => t.reject .illegalCommand .noStage) s)

end Sys2Proof.Machine
end

