-- ==== Sys2Proof/Machine/Init.lean ====
section
/-! DEFINITION. The Init Sequencer's host operation INIT (45_init_sequencer.md). -/

namespace Sys2Proof.Machine

/-- INIT (R160): admitted in any state; one reset, one busy wait, then the table. -/
def execInit (s : State) : Host.Outcome State Fault Refusal :=
  .next (whenIdle (frameH0 4) (fun t => t.acceptOp .init) s)

end Sys2Proof.Machine
end

