-- ==== Sys2Proof/Machine/Port.lean ====
section
/-! DEFINITION. What goes out: the micro-operations SET, XFER, DLY (40_microengine.md) and POLL
(43_busy_synchronizer.md), the four fixed panel payloads (30_encoding.md R82), each as one issuance
on the bus (R56; log entry 13), and the response frame (R76; log entry 12). -/

namespace Sys2Proof.Machine

/-- SET p l (R102). -/
def execSet (p : Pin) (l : Level) (s : State) : Host.Outcome State Fault Refusal :=
  inFlight (pinSetOp p l) s

/-- XFER P (R103). -/
def execXfer (P : Payload) (s : State) : Host.Outcome State Fault Refusal :=
  inFlight (busWriteOp P) s

/-- DLY n (R104). -/
def execDly (n : Nat) (s : State) : Host.Outcome State Fault Refusal :=
  inFlight (delayOp n) s

/-- POLL (R144, R145). -/
def execPoll (s : State) : Host.Outcome State Fault Refusal :=
  inFlight pollOp s

/-- PON (R82): `[PON_CMD]` on the bus. -/
def execPon (s : State) : Host.Outcome State Fault Refusal :=
  inFlight (busWriteOp (ponPayload s.params)) s

/-- DRF (R82): `[DRF_CMD, 0x00]` on the bus. -/
def execDrf (s : State) : Host.Outcome State Fault Refusal :=
  inFlight (busWriteOp (drfPayload s.params)) s

/-- POF (R82): `[POF_CMD, 0x00]` on the bus. -/
def execPof (s : State) : Host.Outcome State Fault Refusal :=
  inFlight (busWriteOp (pofPayload s.params)) s

/-- DSLP (R82): `DSLP_PAYLOAD` on the bus. -/
def execDslp (s : State) : Host.Outcome State Fault Refusal :=
  inFlight (busWriteOp s.params.dslpPayload) s

/-- RESP (R76): the response frame with these fields goes to the host. -/
def execResp (k : Kind) (l : Life) (p : PinTag) (st : Stage) (s : State) :
    Host.Outcome State Fault Refusal :=
  .next (s.sendResp k l p st)

end Sys2Proof.Machine
end

