-- ==== Sys2Proof/Machine/Power.lean ====
section
/-! DEFINITION. The Power Sequencer's host operation POWER_ON (44_power_sequencer.md). -/

namespace Sys2Proof.Machine

/-- POWER_ON (R150): runs `issue_table(POWER_TABLE)`. -/
def execPowerOn (s : State) : Host.Outcome State Fault Refusal :=
  .next (whenIdle (frameH0 3) (fun t => t.acceptOp .powerOn) s)

end Sys2Proof.Machine
end

