-- ==== Sys2Proof/Machine/Dispatch.lean ====
section
/-! DEFINITION. One arm per instruction: which meaning each has. -/

namespace Sys2Proof.Machine

/-- The meaning of each instruction. -/
def exec (i : Instr) (s : State) : Host.Outcome State Fault Refusal :=
  match i with
  -- host operations
  | .stat => Sys2Proof.Machine.execStat s
  | .reset => Sys2Proof.Machine.execReset s
  | .waitBusy => Sys2Proof.Machine.execWaitBusy s
  | .powerOn => Sys2Proof.Machine.execPowerOn s
  | .init => Sys2Proof.Machine.execInit s
  | .write P => Sys2Proof.Machine.execWrite P s
  | .sleep => Sys2Proof.Machine.execSleep s
  -- reserved command frames
  | .reserved07 rest => Sys2Proof.Machine.execReserved07 rest s
  | .reservedHigh first rest => Sys2Proof.Machine.execReservedHigh first rest s
  -- response frame
  | .resp k l p st => Sys2Proof.Machine.execResp k l p st s
  -- fixed panel payloads
  | .pon => Sys2Proof.Machine.execPon s
  | .drf => Sys2Proof.Machine.execDrf s
  | .pof => Sys2Proof.Machine.execPof s
  | .dslp => Sys2Proof.Machine.execDslp s
  -- micro-operations
  | .set p l => Sys2Proof.Machine.execSet p l s
  | .xfer P => Sys2Proof.Machine.execXfer P s
  | .dly n => Sys2Proof.Machine.execDly n s
  | .poll => Sys2Proof.Machine.execPoll s

end Sys2Proof.Machine
end

