-- ==== Sys2Proof/Machine/Fetch.lean ====
section
/-! DEFINITION. Which of the steps of 40_microengine.md R100 is enabled, and the bytes it takes: a
command frame of the host while `RUN = Idle`, a micro-operation of `MP` while an operation is in
flight, the complete step at `UPC = |MP|`. -/

namespace Sys2Proof.Machine

/-- What the next step does. -/
inductive Fetched where
  /-- Idle and no frame presented: nothing happens until there is one (R231). -/
  | waiting
  /-- Run this instruction in this state. -/
  | instr (i : Instr) (s : State)
  /-- A step that runs no instruction: a malformed frame rejected, or the complete step. -/
  | done (s : State)
  /-- No step is enabled. -/
  | stuck
deriving DecidableEq, Repr

/-- The kind and stage a malformed frame is rejected with (R101): `Illegal` or `BadPayload`. -/
def rejection : DecodeError → Kind × Stage
  | .emptyFrame => (.illegalCommand, .noStage)
  | .extraBytes => (.illegalCommand, .noStage)
  | .emptyPayload => (.precondition, .write)
  | .payloadTooLong => (.precondition, .write)

/-- The accept step (R101) up to the decoded instruction; `rest` is what the host still presents. -/
def fetchFrame (s : State) (F : Frame) (rest : List Frame) : Fetched :=
  match decodeFrame s.params.maxPayload F with
  | .instr i => .instr i (s.takeFrame F rest)
  | .rejected e => .done ((s.takeFrame F rest).reject (rejection e).1 (rejection e).2)

/-- While an operation is in flight (R100): the micro-operation at `UPC`, or the complete step. -/
def fetchMicro (s : State) (r : RunRec) : Fetched :=
  match r.mp[r.upc]? with
  | some m => .instr m.instr s
  | none => if r.upc = r.mp.length then .done (s.complete r.op) else .stuck

/-- Which step is enabled (R100). -/
def fetch (s : State) : Fetched :=
  match s.run with
  | .busy r => fetchMicro s r
  | .idle =>
    match s.env.frames with
    | [] => .waiting
    | F :: rest => fetchFrame s F rest

end Sys2Proof.Machine
end

