-- ==== Sys2Proof/Machine/Step.lean ====
section
/-! DEFINITION. One step of the sequencer (40_microengine.md R100), and where the host's checks put
an instruction so that the next step runs it. -/

namespace Sys2Proof.Machine

/-- One step: accept, micro (with the abort inside it) or complete (R100). An idle sequencer to which
the host presents no frame does nothing (R231). -/
def step (s : State) : Host.Outcome State Fault Refusal :=
  match fetch s with
  | .waiting => .next s
  | .instr i t => exec i t
  | .done t => .next t
  | .stuck => .fault .upcBeyondProgram

/-- The host presents the frame `F` to an idle sequencer, before any other. -/
def State.present (s : State) (F : Frame) : State :=
  { s with run := .idle, env := { s.env with frames := F :: s.env.frames } }

/-- The sequencer is inside the operation `op`, about to perform the micro-operation at `n`. -/
def State.insideOp (s : State) (op : HostOp) (n : Nat) : State :=
  { s with run := .busy ⟨op, program s.params op, n, .read, 0⟩ }

/-- Put an opcode-table word where the next step takes its instruction from (log entry 15). A command
frame: the host presents it. A response frame: `RESULT` and `LIFE` hold its fields and the host asks
for them by STAT, whose whole effect is that response. A fixed panel payload: the sequencer is at the
first issuance of it in the operation that emits it (R82). -/
def State.withFetchWord (s : State) (nbits w : Nat) : State :=
  match decodeTableWord nbits w with
  | some (.resp k l p st) =>
    { s with life := l, result := ⟨k, p, st⟩ }.present (frameH0 0)
  | some .pon => s.insideOp .powerOn 1
  | some .drf => s.insideOp .powerOn 11
  | some .pof => s.insideOp .powerOn 20
  | some .dslp => s.insideOp .sleep 1
  | _ => s.present (tableFrame nbits w)

end Sys2Proof.Machine
end

