-- ==== Sys2Proof/Machine/Views.lean ====
section
/-! DEFINITION. The registers a designer would draw, computed from the state that R20 gives: the
sub-block registers of 10_state.md R32 (`RS`, `IDX`, `EPH`, `SW`) from `(OP, UPC)`, and the payload
buffer of R27 (`PBUF`, `PLEN`) from the split write in progress. Nothing here is stored and no step
reads it (R20; log entries 20, 28). -/

namespace Sys2Proof.Machine

/-- `EPH` with `SW` (R32): the phase inside a table entry, and inside a split write which of its
eight steps is next (R120). -/
inductive EntryPhase where
  | split (sw : Nat)
  | wait
  | dly
deriving DecidableEq, Repr

/-- Which sub-block performs the next micro-operation (R32). -/
inductive SubBlock where
  /-- The Reset Sequencer, at its state `RS` (R130). -/
  | resetSeq (rs : Nat)
  /-- The Busy Synchronizer, outside a table: WAIT_BUSY, and the wait of INIT (R163). -/
  | busyWait
  /-- The table engine, at the entry `IDX` and its phase. -/
  | table (idx : Nat) (eph : EntryPhase)
deriving DecidableEq, Repr

/-- The phase of the entry `e` at its micro-operation `k`, or how far `k` lies past the entry. -/
def Entry.phase (e : Entry) (k : Nat) : EntryPhase ⊕ Nat :=
  if k < 8 then .inl (.split k)
  else if e.wait then
    if k = 8 then .inl .wait
    else if 0 < e.dly then (if k = 9 then .inl .dly else .inr (k - 10))
    else .inr (k - 9)
  else if 0 < e.dly then (if k = 8 then .inl .dly else .inr (k - 9))
  else .inr (k - 8)

/-- The entry and phase of micro-operation `k` of `issue_table`, entries numbered from `idx`. -/
def locate : List Entry → Nat → Nat → Option SubBlock
  | [], _, _ => none
  | e :: t, idx, k =>
    match e.phase k with
    | .inl ph => some (.table idx ph)
    | .inr k' => locate t (idx + 1) k'

/-- The command table an operation issues; a WRITE is a table of one entry. -/
def tableOf (p : Params) : HostOp → List Entry
  | .reset => []
  | .waitBusy => []
  | .powerOn => powerTable p
  | .init => initEntries p
  | .write P => [⟨P, false, 0⟩]
  | .sleep => sleepTable p

/-- The sub-block at `UPC` (R32); `none` once the micro-program is done. -/
def SubBlock.at (p : Params) (op : HostOp) (upc : Nat) : Option SubBlock :=
  match op with
  | .reset => if upc < 7 then some (.resetSeq upc) else none
  | .waitBusy => if upc = 0 then some .busyWait else none
  | .init =>
    if upc < 7 then some (.resetSeq upc)
    else if upc = 7 then some .busyWait
    else locate (tableOf p .init) 0 (upc - 8)
  | .powerOn => locate (tableOf p .powerOn) 0 upc
  | .write P => locate (tableOf p (.write P)) 0 upc
  | .sleep => locate (tableOf p .sleep) 0 upc

/-- The micro-operation a phase of an entry performs (R83, R120). -/
def EntryPhase.microOp (e : Entry) : EntryPhase → Option MicroOp
  | .split sw => (Sys2Proof.Machine.split e.payload)[sw]?
  | .wait => some .poll
  | .dly => some (.dly e.dly)

/-- The micro-operation a sub-block performs in its state (R32). -/
def SubBlock.microOp (p : Params) (op : HostOp) : SubBlock → Option MicroOp
  | .resetSeq rs => (Sys2Proof.Machine.resetSeq p)[rs]?
  | .busyWait => some .poll
  | .table idx eph =>
    match (tableOf p op)[idx]? with
    | some e => eph.microOp e
    | none => none

/-- The payload of the split write in progress, if one is: the one that `PBUF` was loaded with, from
step 0 to step 7 of the split write (log entry 28). -/
def State.buffered (s : State) : Option Payload :=
  match s.run with
  | .idle => none
  | .busy r =>
    match SubBlock.at s.params r.op r.upc with
    | some (.table idx (.split _)) => (tableOf s.params r.op)[idx]?.map Entry.payload
    | _ => none

/-- The bytes the payload buffer was loaded with, none of them outside a split write. -/
def State.loaded (s : State) : List Byte :=
  match s.buffered with
  | some P => P.bytes
  | none => []

/-- `PBUF` (R27): `MAX_PAYLOAD` bytes, the payload first; every other byte of it, and the whole of it
between split writes and at reset, is unspecified and here a free value (R31; log entry 28). -/
def State.pbuf (s : State) : List Byte :=
  (List.range s.params.maxPayload).map fun i =>
    s.loaded.getD i (Config.freeBuffer s.trace.length i)

/-- `PLEN` (R27): the length of the payload; between split writes and at reset unspecified, a free
value (R31; log entry 28). -/
def State.plen (s : State) : Nat :=
  match s.buffered with
  | some P => P.length
  | none => Config.freeLength s.trace.length

end Sys2Proof.Machine
end

