-- ==== Sys2Proof/Safety.lean ====
section
/-! DEFINITION. What claims are stated in terms of: the invariant of the reachable states
(10_state.md R33, with R23, R25 to R28), the port trace and the host trace (00_scope.md R11), the
events of a micro-program whose answers are all good, and runs of several steps. -/

namespace Sys2Proof.Machine

/-- The level the last SET on pin `p` among `ops` drove, if there is one. -/
def lastSet (p : Pin) : List MicroOp → Option Level
  | [] => none
  | .set q l :: t => if q = p then (lastSet p t).or (some l) else lastSet p t
  | .xfer _ :: t => lastSet p t
  | .dly _ :: t => lastSet p t
  | .poll :: t => lastSet p t

/-- The latches agree with the part of the micro-program performed so far: every pin it has set holds
the level it set last (R28; every performed SET was answered `ok`, or the operation would be over). -/
def PinsTrack (ps : Pins) (r : RunRec) : Prop :=
  ∀ p l, lastSet p (r.mp.take r.upc) = some l → ps.get p = latchOf l

/-- The Busy Synchronizer's state (R26): it sleeps only inside a wait, a wait starts from 0, and the
count stays within the bound. -/
def PollOk (c : Cfg) (r : RunRec) : Prop :=
  (r.pollPh = .sleep → r.mp[r.upc]? = some .poll) ∧
  (r.mp[r.upc]? ≠ some .poll → r.polls = 0) ∧
  ∀ n, c.maxPolls = some n → r.polls ≤ n ∧ (r.pollPh = .read → r.polls < n)

/-- What holds of the operation in flight: its micro-program is the one of R108, `UPC` is in range
(R33 (a)), `LIFE = Writing` only under WRITE (R33 (b)), and a WRITE's payload is no longer than
`MAX_PAYLOAD` (R55, R177). -/
def RunOk (s : State) (r : RunRec) : Prop :=
  r.mp = program s.params r.op ∧ r.upc ≤ r.mp.length ∧
  (s.life = .writing → ∃ P, r.op = .write P) ∧
  (∀ P, r.op = .write P → P.length ≤ s.params.maxPayload) ∧
  PollOk s.cfg r ∧ PinsTrack s.pins r

/-- The invariant of every reachable state. -/
def Inv (s : State) : Prop :=
  s.params.WellFormed s.cfg ∧
  (s.result.kind = .pinFault ↔ s.result.pin ≠ .noPin) ∧
  (s.run = .idle → s.life ≠ .writing) ∧
  ∀ r, s.run = .busy r → RunOk s r

/-- The four Bus Port events (R10, R11). -/
def Event.isPort : Event → Bool
  | .pinSet _ _ => true
  | .busWrite _ => true
  | .busyRead => true
  | .delay _ => true
  | .cmd _ => false
  | .resp _ _ => false

/-- A bus call (R56). -/
def Event.isBusWrite : Event → Bool
  | .pinSet _ _ => false
  | .busWrite _ => true
  | .busyRead => false
  | .delay _ => false
  | .cmd _ => false
  | .resp _ _ => false

/-- The port trace (R11). -/
def portTrace (tr : List Event) : List Event := tr.filter Event.isPort

/-- The event of a micro-operation performed once: a POLL whose first read answers `ready`. -/
def MicroOp.event : MicroOp → Event
  | .set p l => .pinSet p l
  | .xfer P => .busWrite P
  | .dly n => .delay n
  | .poll => .busyRead

/-- A command frame taken from the host (R70). -/
def Event.isCmd : Event → Bool
  | .pinSet _ _ => false
  | .busWrite _ => false
  | .busyRead => false
  | .delay _ => false
  | .cmd _ => true
  | .resp _ _ => false

/-- A response frame sent to the host (R76). -/
def Event.isResp : Event → Bool
  | .pinSet _ _ => false
  | .busWrite _ => false
  | .busyRead => false
  | .delay _ => false
  | .cmd _ => false
  | .resp _ _ => true

/-- How many milliseconds an event asks the delay source for (R10). -/
def Event.delayMs : Event → Nat
  | .pinSet _ _ => 0
  | .busWrite _ => 0
  | .busyRead => 0
  | .delay n => n
  | .cmd _ => 0
  | .resp _ _ => 0

/-- How many operations are in flight: none or one (R180). -/
def Run.count : Run → Nat
  | .idle => 0
  | .busy _ => 1

/-- How many answers of the Bus Port a list of micro-operations takes: one per SET and XFER. -/
def answersTaken : List MicroOp → Nat
  | [] => 0
  | .set _ _ :: t => answersTaken t + 1
  | .xfer _ :: t => answersTaken t + 1
  | .dly _ :: t => answersTaken t
  | .poll :: t => answersTaken t

/-- How many busy waits a list of micro-operations holds: one per POLL. -/
def waitsIn : List MicroOp → Nat
  | [] => 0
  | .set _ _ :: t => waitsIn t
  | .xfer _ :: t => waitsIn t
  | .dly _ :: t => waitsIn t
  | .poll :: t => waitsIn t + 1

/-- The latches after the SET micro-operations of `ops`, all answered `ok`. -/
def pinsAfter (ps : Pins) : List MicroOp → Pins
  | [] => ps
  | .set p l :: t => pinsAfter (ps.put p (latchOf l)) t
  | .xfer _ :: t => pinsAfter ps t
  | .dly _ :: t => pinsAfter ps t
  | .poll :: t => pinsAfter ps t

/-- The events of a fault-free split write (R120). -/
def splitEvents (P : Payload) : List Event :=
  [.pinSet .cs1 .low, .busWrite P, .pinSet .cs1 .high, .pinSet .cs2 .high,
   .pinSet .cs2 .low, .busWrite P, .pinSet .cs1 .high, .pinSet .cs2 .high]

/-- The events of a fault-free reset pulse train (R130). -/
def resetEvents (p : Params) : List Event :=
  [.pinSet .rst .high, .delay p.tResetMs, .pinSet .rst .low, .delay p.tResetMs,
   .pinSet .rst .high, .delay p.tResetMs, .pinSet .rst .low]

/-- The level of `BUSY` that is not `READY_LEVEL` (R52). -/
def otherLevel : Level → Level
  | .high => .low
  | .low => .high

/-- The levels a busy wait reads that sees `k` not-ready answers and then `ready` (R146). -/
def waitLevels (c : Cfg) (k : Nat) : List Level :=
  List.replicate k (otherLevel c.readyLevel) ++ [c.readyLevel]

/-- The events of such a busy wait (R146). -/
def waitEvents (c : Cfg) (k : Nat) : List Event :=
  (List.replicate k [.busyRead, .delay c.pollRateMs]).flatten ++ [.busyRead]

/-- Whether a busy wait may see `k` not-ready answers and still end: `k` is below the bound (R145). -/
abbrev belowBound (c : Cfg) (k : Nat) : Prop := ∀ n ∈ c.maxPolls, k < n

/-- The events of micro-operations whose answers are all `ok`, the busy waits among them seeing as many
not-ready answers as the list of numbers says, in order (none once it is used up). -/
def eventsOf (c : Cfg) : List MicroOp → List Nat → List Event
  | [], _ => []
  | .set p l :: t, ks => .pinSet p l :: eventsOf c t ks
  | .xfer P :: t, ks => .busWrite P :: eventsOf c t ks
  | .dly n :: t, ks => .delay n :: eventsOf c t ks
  | .poll :: t, ks => waitEvents c (ks.headD 0) ++ eventsOf c t ks.tail

/-- The same machine with the other polarity of the busy pin: `READY_LEVEL` and every level the
environment presents turned over (R52). -/
def State.flipBusy (s : State) : State :=
  { s with
    cfg := { s.cfg with readyLevel := otherLevel s.cfg.readyLevel }
    env := { s.env with levels := s.env.levels.map otherLevel } }

/-- `n` steps, stopping at the first fault or refusal. -/
def runSteps : Nat → State → Host.Outcome State Fault Refusal
  | 0, s => .next s
  | n + 1, s =>
    match step s with
    | .next t => runSteps n t
    | .fault r => .fault r
    | .refused r => .refused r

end Sys2Proof.Machine
end

