-- ==== Sys2Proof/Certificates/Slice0/Obligations.lean ====
section
/-! DEFINITION. The statements for the provers, in the order of the spec's files: encodings, the
accept step, the micro-operations, the micro-programs, whole operations, the invariant, frames and
whole-machine rules. Rules of spec/ are cited as R<n>, decisions of 92_eei_decisions.md as D<n>. -/

open Sys2Proof Sys2Proof.Machine

/-! ## Encodings (30_encoding.md) -/

/-- Frames and payloads written out bit by bit from R71, R72, R74, R76 and R82. The binary forms are
the spec's decisions D2 and D3. R73 and R74 call the frames that begin with `0x07` and `0x15` Illegal;
that they decode to the instructions RESERVED_07 and RESERVED_HIGH, whose meaning is that rejection,
is the model's reading of the opcode table (log entry 14). -/
def Obligations.WrittenOutFramesDecode : Prop :=
  decodeFrame 16 [0b00000000] = .instr .stat ∧
  decodeFrame 16 [0b00000001] = .instr .reset ∧
  decodeFrame 16 [0b00000010] = .instr .waitBusy ∧
  decodeFrame 16 [0b00000011] = .instr .powerOn ∧
  decodeFrame 16 [0b00000100] = .instr .init ∧
  decodeFrame 16 [0b00000101, 0b00010000, 0b10101010] = .instr (.write ⟨0x10, [0xAA]⟩) ∧
  decodeFrame 16 [0b00000110] = .instr .sleep ∧
  decodeFrame 16 [0b00000111, 0b00000001] = .instr (.reserved07 [0x01]) ∧
  decodeFrame 16 [0b00010101, 0b00010000] = .instr (.reservedHigh 0x15 [0x10]) ∧
  decodeResp [0b00100110, 0b00100101] = some (.resp .pinFault .failed .cs2 .write) ∧
  decodePanel Config.params [0b00000111, 0b10100101] = some .dslp

/-- Encoding a well-formed command and decoding its frame gives the command back, whatever its
operands (R71 to R75; decision D2). -/
def Obligations.CommandFramesRoundTrip : Prop :=
  ∀ (p : Params) (i : Instr) (F : Frame), i.channel = .command → i.wf p = true →
    encode p i = some F → decodeFrame p.maxPayload F = .instr i

/-- A frame that decodes is the frame of the instruction it decodes to, which is well-formed: no two
frames stand for one instruction (R73; decision D2). -/
def Obligations.DecodedFramesEncodeBack : Prop :=
  ∀ (p : Params) (F : Frame) (i : Instr), decodeFrame p.maxPayload F = .instr i →
    i.channel = .command ∧ i.wf p = true ∧ encode p i = some F

/-- Exactly which frames the decoder rejects, and under which name. That it is these, that the
reserved codes which R73 and R74 also call Illegal are rows of the opcode table instead, and the four
names, are the model's reading (log entry 14); that all of them are turned away is R73, R74
(decisions D2, D14, D33). -/
def Obligations.MalformedFramesAreNamed : Prop :=
  ∀ (m : Nat) (F : Frame),
    (decodeFrame m F = .rejected .emptyFrame ↔ F = []) ∧
    (decodeFrame m F = .rejected .extraBytes ↔
      ∃ b c t, F = b :: c :: t ∧ b.toNat < 7 ∧ b.toNat ≠ 5) ∧
    (decodeFrame m F = .rejected .emptyPayload ↔ F = [0x05]) ∧
    (decodeFrame m F = .rejected .payloadTooLong ↔
      ∃ c t, F = 0x05 :: c :: t ∧ m < (c :: t).length)

/-- Response frames and panel payloads: every response decodes to its four fields; whatever decodes
as one encodes back to the same two bytes; a payload named by the decoder is that payload; and where
the four fixed payloads differ each is named (R76 to R80, R82; decision D3). -/
def Obligations.ResponsesAndPayloadsRoundTrip : Prop :=
  (∀ (p : Params) (k : Kind) (l : Life) (t : PinTag) (st : Stage) (F : Frame),
    encode p (.resp k l t st) = some F → decodeResp F = some (.resp k l t st)) ∧
  (∀ (p : Params) (F : Frame) (i : Instr), decodeResp F = some i →
    i.channel = .response ∧ encode p i = some F) ∧
  (∀ (p : Params) (F : Frame) (i : Instr), decodePanel p F = some i →
    i.channel = .panel ∧ encode p i = some F) ∧
  (∀ (p : Params) (i : Instr) (F : Frame),
    [p.dslpPayload, drfPayload p, pofPayload p, ponPayload p].Nodup →
    i.channel = .panel → encode p i = some F → decodePanel p F = some i)

/-! ## The step and the accept step (40_microengine.md R100, R101) -/

/-- A step runs the decoded instruction: of the next frame while idle, after recording the frame; of
the micro-operation at `UPC` while an operation is in flight (R100, R101). -/
def Obligations.StepRunsTheDecodedInstruction : Prop :=
  (∀ (s : State) (F : Frame) (rest : List Frame) (i : Instr), s.run = .idle →
    s.env.frames = F :: rest → decodeFrame s.params.maxPayload F = .instr i →
    step s = exec i { s with
      trace := s.trace ++ [Event.cmd F], env := { s.env with frames := rest } }) ∧
  (∀ (s : State) (r : RunRec) (m : MicroOp), s.run = .busy r → r.mp[r.upc]? = some m →
    step s = exec m.instr s)

/-- The host interface: an idle sequencer without a frame does nothing (R231); while an operation is
in flight no step touches the frames the host presents, and a command presented then is held and has
no other effect (R180; decision D21; the place where it is held is the model's, log entries 6, 7). -/
def Obligations.FramesAreHeldWhileBusy : Prop :=
  (∀ s : State, s.run = .idle → s.env.frames = [] → step s = .next s) ∧
  (∀ (s t : State) (r : RunRec), s.run = .busy r → step s = .next t →
    t.env.frames = s.env.frames) ∧
  (∀ (s : State) (r : RunRec) (i : Instr) (F : Frame), s.run = .busy r →
    i.channel = .command → encode s.params i = some F →
    exec i s = .next { s with env := { s.env with frames := s.env.frames ++ [F] } })

/-- Frames that are no operation: reserved codes, and frames the decoder rejects by name. Each is
recorded, answered, and does nothing else (R74, R101, R204, R205; decisions D14, D33). -/
def Obligations.FramesWithoutAnOperationAreRejected : Prop :=
  (∀ (s : State) (rest : List Byte), s.run = .idle →
    exec (.reserved07 rest) s = .next { s with
      result := ⟨.illegalCommand, .noPin, .noStage⟩
      trace := s.trace ++ [Event.resp (respByte0 .illegalCommand s.life) 0x00] }) ∧
  (∀ (s : State) (b : Byte) (rest : List Byte), s.run = .idle →
    exec (.reservedHigh b rest) s = .next { s with
      result := ⟨.illegalCommand, .noPin, .noStage⟩
      trace := s.trace ++ [Event.resp (respByte0 .illegalCommand s.life) 0x00] }) ∧
  (∀ (s : State) (F : Frame) (rest : List Frame) (e : DecodeError), s.run = .idle →
    s.env.frames = F :: rest → decodeFrame s.params.maxPayload F = .rejected e →
    (e = .emptyFrame ∨ e = .extraBytes) →
    step s = .next { s with
      result := ⟨.illegalCommand, .noPin, .noStage⟩
      trace := s.trace ++ [Event.cmd F, Event.resp (respByte0 .illegalCommand s.life) 0x00]
      env := { s.env with frames := rest } }) ∧
  (∀ (s : State) (F : Frame) (rest : List Frame) (e : DecodeError), s.run = .idle →
    s.env.frames = F :: rest → decodeFrame s.params.maxPayload F = .rejected e →
    (e = .emptyPayload ∨ e = .payloadTooLong) →
    step s = .next { s with
      result := ⟨.precondition, .noPin, .write⟩
      trace := s.trace ++ [Event.cmd F, Event.resp (respByte0 .precondition s.life) 0x05]
      env := { s.env with frames := rest } })

/-- STAT answers with the stored result and the current lifecycle state and changes nothing (R172;
decision D7). -/
def Obligations.StatAnswers : Prop :=
  ∀ s : State, s.run = .idle →
    exec .stat s = .next { s with
      trace := s.trace ++ [Event.resp (respByte0 s.result.kind s.life)
        (respByte1 s.result.pin s.result.stage)] }

/-- RESET is admitted in every lifecycle state and starts the pulse train (R173, R130; decision D6). -/
def Obligations.ResetStarts : Prop :=
  ∀ s : State, s.run = .idle →
    exec .reset s = .next { s with
      run := .busy ⟨.reset,
        [.set .rst .high, .dly s.params.tResetMs, .set .rst .low, .dly s.params.tResetMs,
         .set .rst .high, .dly s.params.tResetMs, .set .rst .low], 0, .read, 0⟩ }

/-- WAIT_BUSY starts one busy wait, in any lifecycle state but `Failed` where the lifecycle is
enforced (R174; decisions D5, D6). -/
def Obligations.WaitBusyStarts : Prop :=
  ∀ s : State, s.run = .idle → (s.cfg.strict = true → s.life ≠ .failed) →
    exec .waitBusy s = .next { s with run := .busy ⟨.waitBusy, [MicroOp.poll], 0, .read, 0⟩ }

/-- POWER_ON starts PON, wait, settling delay, DRF with a trailing zero, wait, POF with a trailing
zero and no wait (R150; admission by decision D5; the order of raising the chip-selects inside `split`
is decision D8, log entry 17). -/
def Obligations.PowerOnStarts : Prop :=
  ∀ s : State, s.run = .idle → (s.cfg.strict = true → s.life ≠ .failed) →
    1 ≤ s.params.tPonSettleMs →
    exec .powerOn s = .next { s with
      run := .busy ⟨.powerOn,
        split ⟨s.params.ponCmd, []⟩ ++ [MicroOp.poll, .dly s.params.tPonSettleMs] ++
        split ⟨s.params.drfCmd, [0x00]⟩ ++ [MicroOp.poll] ++
        split ⟨s.params.pofCmd, [0x00]⟩, 0, .read, 0⟩ }

/-- INIT is admitted in every lifecycle state and starts one reset pulse train, one busy wait, then
one split write for each table entry in order (R160, R161, R163; one reset and one wait are decisions
D19, D20, log entry 25; the order of raising the chip-selects inside `split` is decision D8, log entry
17). -/
def Obligations.InitStarts : Prop :=
  ∀ s : State, s.run = .idle →
    exec .init s = .next { s with
      run := .busy ⟨.init,
        resetSeq s.params ++ [MicroOp.poll] ++ (s.params.initTable.map split).flatten, 0, .read, 0⟩ }

/-- WRITE of at most `MAX_PAYLOAD` bytes, from `Initialized` where the lifecycle is enforced, starts
one split write; `LIFE` becomes `Writing` exactly from `Initialized` (R177; decisions D5, D25; the
order of raising the chip-selects inside `split` is decision D8, log entry 17). -/
def Obligations.WriteStarts : Prop :=
  ∀ (s : State) (P : Payload), s.run = .idle → P.length ≤ s.params.maxPayload →
    (s.cfg.strict = true → s.life = .initialized) →
    exec (.write P) s = .next { s with
      life := if s.life = .initialized then .writing else s.life
      run := .busy ⟨.write P, split P, 0, .read, 0⟩ }

/-- SLEEP, from `Initialized` where the lifecycle is enforced, starts the split write of the
deep-sleep payload and then the delay (R178; admission by decision D5; the order of raising the
chip-selects inside `split` is decision D8, log entry 17). -/
def Obligations.SleepStarts : Prop :=
  ∀ s : State, s.run = .idle → (s.cfg.strict = true → s.life = .initialized) →
    1 ≤ s.params.tSleepMs →
    exec .sleep s = .next { s with
      run := .busy ⟨.sleep, split s.params.dslpPayload ++ [MicroOp.dly s.params.tSleepMs],
        0, .read, 0⟩ }

/-- Operations the lifecycle does not admit are turned away with `Precondition` and their own stage,
an over-long WRITE whatever the lifecycle, with no event but the response (R170, R204; decisions D5,
D14). -/
def Obligations.CommandsNotAdmittedAreTurnedAway : Prop :=
  ∀ s : State, s.run = .idle →
    (s.cfg.strict = true → s.life = .failed →
      exec .waitBusy s = .next { s with
        result := ⟨.precondition, .noPin, .waitBusy⟩
        trace := s.trace ++ [Event.resp 0x46 0x02] } ∧
      exec .powerOn s = .next { s with
        result := ⟨.precondition, .noPin, .powerOn⟩
        trace := s.trace ++ [Event.resp 0x46 0x03] }) ∧
    (s.cfg.strict = true → s.life ≠ .initialized →
      (∀ P, exec (.write P) s = .next { s with
        result := ⟨.precondition, .noPin, .write⟩
        trace := s.trace ++ [Event.resp (respByte0 .precondition s.life) 0x05] }) ∧
      exec .sleep s = .next { s with
        result := ⟨.precondition, .noPin, .sleep⟩
        trace := s.trace ++ [Event.resp (respByte0 .precondition s.life) 0x06] }) ∧
    (∀ P : Payload, s.params.maxPayload < P.length →
      exec (.write P) s = .next { s with
        result := ⟨.precondition, .noPin, .write⟩
        trace := s.trace ++ [Event.resp (respByte0 .precondition s.life) 0x05] })

/-- The admission matrix, and the lifecycle state after each completed operation (R170, R171;
decisions D4, D5, D25). -/
def Obligations.AdmissionAndTransitions : Prop :=
  (∀ (op : HostOp) (l : Life), admitted op l false = true) ∧
  (∀ l : Life,
    admitted .reset l true = true ∧ admitted .init l true = true ∧
    (admitted .waitBusy l true = true ↔ l ≠ .failed) ∧
    (admitted .powerOn l true = true ↔ l ≠ .failed) ∧
    (∀ P, admitted (.write P) l true = true ↔ l = .initialized) ∧
    (admitted .sleep l true = true ↔ l = .initialized)) ∧
  (∀ l : Life,
    post .reset l = .reset ∧ post .waitBusy l = l ∧ post .powerOn l = .poweredOn ∧
    post .init l = .initialized ∧ post .sleep l = .sleeping ∧
    ∀ P, post (.write P) .writing = .initialized ∧ (l ≠ .writing → post (.write P) l = l))

/-! ## The micro-operations, the panel payloads, the response (R82, R76, R102 to R104, R144, R145) -/

/-- SET p l: one `PinSet`; on `ok` the latch holds the level and `UPC` advances, on `fault` the latch
is `X` and the abort is taken with `PinFault(p)` (R102). -/
def Obligations.SetDrivesThePin : Prop :=
  ∀ (s : State) (r : RunRec) (p : Pin) (l : Level), s.run = .busy r →
    (s.answer = .ok → exec (.set p l) s = .next { s with
      trace := s.trace ++ [Event.pinSet p l]
      pins := s.pins.put p (latchOf l)
      run := .busy { r with upc := r.upc + 1 }
      env := { s.env with answers := s.env.answers.tail, draws := s.env.draws + 1 } }) ∧
    (s.answer = .fault → exec (.set p l) s = .next (State.abort { s with
      trace := s.trace ++ [Event.pinSet p l]
      pins := s.pins.put p .unknown
      env := { s.env with answers := s.env.answers.tail, draws := s.env.draws + 1 } }
      (.pinFault (pinTag p)) r.op))

/-- XFER P: one `BusWrite` of the whole payload; on `ok` `UPC` advances, on `fault` the abort is
taken with `BusFault`; no pin is touched (R103). -/
def Obligations.XferSendsThePayload : Prop :=
  ∀ (s : State) (r : RunRec) (P : Payload), s.run = .busy r →
    (s.answer = .ok → exec (.xfer P) s = .next { s with
      trace := s.trace ++ [Event.busWrite P]
      run := .busy { r with upc := r.upc + 1 }
      env := { s.env with answers := s.env.answers.tail, draws := s.env.draws + 1 } }) ∧
    (s.answer = .fault → exec (.xfer P) s = .next (State.abort { s with
      trace := s.trace ++ [Event.busWrite P]
      env := { s.env with answers := s.env.answers.tail, draws := s.env.draws + 1 } }
      .busFault r.op))

/-- DLY n: one `Delay(n)`, `UPC` advances, nothing else; it cannot fail; in the micro-programs `n` is
one of the three fixed delays and never 0, and an entry without a delay has no DLY (R104). -/
def Obligations.DlyAsksForTheDelay : Prop :=
  (∀ (s : State) (r : RunRec) (n : Nat), s.run = .busy r →
    exec (.dly n) s = .next { s with
      trace := s.trace ++ [Event.delay n]
      run := .busy { r with upc := r.upc + 1 } }) ∧
  (∀ (c : Cfg) (p : Params) (op : HostOp) (n : Nat), p.WellFormed c → .dly n ∈ program p op →
    1 ≤ n ∧ (n = p.tResetMs ∨ n = p.tPonSettleMs ∨ n = p.tSleepMs)) ∧
  (∀ (P : Payload) (w : Bool) (n : Nat), .dly n ∉ entryOps ⟨P, w, 0⟩)

/-- POLL, read phase: one `BusyRead`; at `READY_LEVEL` the wait ends, otherwise it is counted and the
sleep phase is next (R144). -/
def Obligations.PollReadsTheBusyPin : Prop :=
  ∀ (s : State) (r : RunRec), s.run = .busy r → r.pollPh = .read →
    (s.level = s.cfg.readyLevel → exec .poll s = .next { s with
      trace := s.trace ++ [Event.busyRead]
      run := .busy { r with upc := r.upc + 1, polls := 0 }
      env := { s.env with levels := s.env.levels.tail, draws := s.env.draws + 1 } }) ∧
    (s.level ≠ s.cfg.readyLevel → exec .poll s = .next { s with
      trace := s.trace ++ [Event.busyRead]
      run := .busy { r with polls := r.polls + 1, pollPh := .sleep }
      env := { s.env with levels := s.env.levels.tail, draws := s.env.draws + 1 } })

/-- POLL, sleep phase: one `Delay(poll_rate_ms)`; with the bound reached the abort is taken with
`Timeout`, otherwise the pin is read again (R145; the placement of the last sleep is decision D10). -/
def Obligations.PollSleepsAndTimesOut : Prop :=
  ∀ (s : State) (r : RunRec), s.run = .busy r → r.pollPh = .sleep →
    (∀ n, s.cfg.maxPolls = some n → n ≤ r.polls → exec .poll s = .next (State.abort { s with
      trace := s.trace ++ [Event.delay s.cfg.pollRateMs] } .timeout r.op)) ∧
    ((∀ n, s.cfg.maxPolls = some n → r.polls < n) → exec .poll s = .next { s with
      trace := s.trace ++ [Event.delay s.cfg.pollRateMs]
      run := .busy { r with pollPh := .read } })

/-- The four fixed panel payloads, each issued as one bus write of the operation in flight, with the
bytes R82 gives; on a `fault` answer the abort is taken with `BusFault`. That the row's meaning is one
issuance, with XFER's faults (R103), is the model's reading (log entry 13); the abort is R206
(decisions D4, D12). -/
def Obligations.PanelPayloadsGoOut : Prop :=
  ∀ (s : State) (r : RunRec), s.run = .busy r →
    let pon : Payload := ⟨s.params.ponCmd, []⟩
    let drf : Payload := ⟨s.params.drfCmd, [0x00]⟩
    let pof : Payload := ⟨s.params.pofCmd, [0x00]⟩
    let called (P : Payload) : State := { s with
      trace := s.trace ++ [Event.busWrite P]
      env := { s.env with answers := s.env.answers.tail, draws := s.env.draws + 1 } }
    let sent (P : Payload) : State :=
      { called P with run := .busy { r with upc := r.upc + 1 } }
    let failed (P : Payload) : State := { called P with
      result := ⟨.busFault, .noPin, stage r.op⟩
      life := .failed
      run := .idle
      trace := s.trace ++ [Event.busWrite P, Event.resp 0x16 (respByte1 .noPin (stage r.op))] }
    (s.answer = .ok →
      exec .pon s = .next (sent pon) ∧ exec .drf s = .next (sent drf) ∧
      exec .pof s = .next (sent pof) ∧ exec .dslp s = .next (sent s.params.dslpPayload)) ∧
    (s.answer = .fault →
      exec .pon s = .next (failed pon) ∧ exec .drf s = .next (failed drf) ∧
      exec .pof s = .next (failed pof) ∧ exec .dslp s = .next (failed s.params.dslpPayload))

/-- RESP sends the two bytes of its fields to the host, laid out as R76 says: kind in `b0[7:4]`, life
in `b0[2:0]`, pin in `b1[5:4]`, stage in `b1[2:0]`, zeros elsewhere (decision D3; that the row's
meaning is the bare sending is the model's reading, log entry 12). -/
def Obligations.RespGoesToTheHost : Prop :=
  ∀ (s : State) (k : Kind) (l : Life) (p : PinTag) (st : Stage),
    ∃ b0 b1 : Byte,
      exec (.resp k l p st) s = .next { s with trace := s.trace ++ [Event.resp b0 b1] } ∧
      b0.toNat = 16 * (kindCode k).toNat + (lifeCode l).toNat ∧
      b1.toNat = 16 * (pinCode p).toNat + (stageCode st).toNat

/-- With no operation in flight no micro step is enabled: the micro-operations and the panel payloads
stop by name (R100). -/
def Obligations.MicroOperationsNeedAnOperationInFlight : Prop :=
  ∀ (s : State) (i : Instr), s.run = .idle → (i.channel = .internal ∨ i.channel = .panel) →
    exec i s = .fault .noOperationInFlight

/-- The abort: the result names the fault and the operation, `LIFE` becomes `Failed`, the rest of the
micro-program is discarded, the host is answered; pins, configuration and inputs stay (R206;
decisions D4, D12). -/
def Obligations.AbortRecordsTheFault : Prop :=
  ∀ (s : State) (op : HostOp),
    (∀ p : Pin, s.abort (.pinFault (pinTag p)) op = { s with
      result := ⟨.pinFault, pinTag p, stage op⟩
      life := .failed
      run := .idle
      trace := s.trace ++ [Event.resp 0x26 (respByte1 (pinTag p) (stage op))] }) ∧
    s.abort .busFault op = { s with
      result := ⟨.busFault, .noPin, stage op⟩
      life := .failed
      run := .idle
      trace := s.trace ++ [Event.resp 0x16 (respByte1 .noPin (stage op))] } ∧
    s.abort .timeout op = { s with
      result := ⟨.timeout, .noPin, stage op⟩
      life := .failed
      run := .idle
      trace := s.trace ++ [Event.resp 0x36 (respByte1 .noPin (stage op))] }

/-- The complete step, and that it is the only way an operation ends with `Ok` (R106). -/
def Obligations.OnlyCompletionEndsWithOk : Prop :=
  (∀ (s : State) (r : RunRec), s.run = .busy r → r.upc = r.mp.length →
    step s = .next { s with
      life := post r.op s.life
      result := ⟨.ok, .noPin, stage r.op⟩
      run := .idle
      trace := s.trace ++ [Event.resp (respByte0 .ok (post r.op s.life))
        (respByte1 .noPin (stage r.op))] }) ∧
  (∀ (s t : State) (r : RunRec), s.run = .busy r → step s = .next t → t.run = .idle →
    t.result.kind = .ok → r.upc = r.mp.length)

/-! ## Micro-programs (R107, R108, R120, R130) -/

/-- The micro-program of each operation, fixed at acceptance, and its length; STAT starts none
(R108). -/
def Obligations.ProgramsOfTheOperations : Prop :=
  (∀ (c : Cfg) (p : Params), p.WellFormed c →
    (program p .reset = resetSeq p ∧ (program p .reset).length = 7) ∧
    (program p .waitBusy = [MicroOp.poll] ∧ (program p .waitBusy).length = 1) ∧
    (program p .powerOn = issueTable (powerTable p) ∧ (program p .powerOn).length = 27) ∧
    (program p .init = resetSeq p ++ [MicroOp.poll] ++ issueTable (initEntries p) ∧
      (program p .init).length = 8 + 8 * p.initTable.length) ∧
    (∀ P, program p (.write P) = split P ∧ (program p (.write P)).length = 8) ∧
    (program p .sleep = issueTable (sleepTable p) ∧ (program p .sleep).length = 9)) ∧
  (∀ (s : State) (op : HostOp),
    (s.start op).run = .busy ⟨op, program s.params op, 0, .read, 0⟩) ∧
  (∀ s t : State, s.run = .idle → exec .stat s = .next t → t.run = .idle)

/-- Every micro-operation of every micro-program has its operands in range: payloads of at most
`MAX_PAYLOAD` bytes, delays of at least one millisecond (R55, R85, R103, R104). -/
def Obligations.ProgramsAreWellFormed : Prop :=
  ∀ (c : Cfg) (p : Params) (op : HostOp) (m : MicroOp), p.WellFormed c →
    (∀ P, op = .write P → P.length ≤ p.maxPayload) → m ∈ program p op → m.wf p = true

/-- The reset pulse train, wherever it stands at the head of a micro-program (RESET, INIT): with
every answer `ok` its seven steps emit four `PinSet` on `RST`, high, low, high, low, a
`Delay(T_RESET_MS)` between each two and none after the last, no bus write and no busy read, leave
the chip-selects alone and `RST` low; the delays add up to three times `T_RESET_MS`, 9 ms with the
document's constants (R131). -/
def Obligations.ResetPulseTrain : Prop :=
  ∀ (s : State) (r : RunRec) (rest : List Answer), s.run = .busy r → r.upc = 0 →
    r.mp.take 7 = resetSeq s.params → s.env.answers = [Answer.ok, .ok, .ok, .ok] ++ rest →
    ∃ (t : State) (es : List Event), runSteps 7 s = .next t ∧ t.trace = s.trace ++ es ∧
      es = [Event.pinSet .rst .high, Event.delay s.params.tResetMs, Event.pinSet .rst .low,
        Event.delay s.params.tResetMs, Event.pinSet .rst .high, Event.delay s.params.tResetMs,
        Event.pinSet .rst .low] ∧
      (es.map Event.delayMs).sum = 3 * s.params.tResetMs ∧
      (s.params.tResetMs = 3 → (es.map Event.delayMs).sum = 9) ∧
      t.run = .busy { r with upc := 7 } ∧ t.pins = { s.pins with rst := .low } ∧
      t.life = s.life ∧ t.result = s.result ∧ t.env.answers = rest

/-- Failure of the reset pulse train, wherever it stands at the head of a micro-program: a `fault`
answers one of its four SETs, at the states 0, 2, 4, 6; then the fault is `PinFault(RST)`, the latch
of `RST` is `X`, the remaining states are not visited, and the stage is that of the operation in
flight; and nothing else inside it ends the operation (R134). -/
def Obligations.ResetPulseTrainFaults : Prop :=
  (∀ (s : State) (r : RunRec) (j : Nat) (rest : List Answer), s.run = .busy r → r.upc = 0 →
    r.mp.take 7 = resetSeq s.params → j < 4 →
    s.env.answers = List.replicate j Answer.ok ++ Answer.fault :: rest →
    ∃ t : State, runSteps (2 * j + 1) s = .next t ∧ t.run = .idle ∧
      t.result = ⟨.pinFault, .rst, stage r.op⟩ ∧ t.pins = { s.pins with rst := .unknown } ∧
      portTrace t.trace = portTrace s.trace ++ (resetEvents s.params).take (2 * j + 1)) ∧
  (∀ (s t : State) (r : RunRec), s.run = .busy r → r.mp.take 7 = resetSeq s.params →
    r.upc < 7 → step s = .next t → t.run = .idle →
    r.upc % 2 = 0 ∧ s.answer = .fault ∧ t.result = ⟨.pinFault, .rst, stage r.op⟩ ∧
      t.pins = { s.pins with rst := .unknown }) ∧
  (stage .reset = .reset ∧ stage .init = .init)

/-- A split write, wherever it stands in a micro-program: with every answer `ok` its eight steps send
the payload exactly twice, once under each chip-select, end with both selects high and change
nothing but the pins and `UPC` (R120, R122, R124; that the primary select is raised first is decision
D8, log entry 17). -/
def Obligations.SplitWriteSendsTwice : Prop :=
  ∀ (s : State) (r : RunRec) (P : Payload) (rest : List Answer), s.run = .busy r →
    (r.mp.drop r.upc).take 8 = split P → s.env.answers = List.replicate 8 Answer.ok ++ rest →
    ∃ t : State, runSteps 8 s = .next t ∧
      t.trace = s.trace ++
        [Event.pinSet .cs1 .low, Event.busWrite P, Event.pinSet .cs1 .high, Event.pinSet .cs2 .high,
         Event.pinSet .cs2 .low, Event.busWrite P, Event.pinSet .cs1 .high, Event.pinSet .cs2 .high] ∧
      t.pins = { s.pins with cs1 := .high, cs2 := .high } ∧
      t.run = .busy { r with upc := r.upc + 8 } ∧
      t.life = s.life ∧ t.result = s.result ∧ t.env.answers = rest

/-- A fault at step `j` of a split write, the steps before it `ok`: the fault raised, both
chip-selects after it, and the events so far, for each of the eight steps (R123, derived there; the
raise order is decision D8, log entry 17). -/
def Obligations.SplitWriteFaultTable : Prop :=
  ∀ (s : State) (r : RunRec) (P : Payload) (j : Nat) (rest : List Answer), s.run = .busy r →
    (r.mp.drop r.upc).take 8 = split P → j < 8 →
    s.env.answers = List.replicate j Answer.ok ++ Answer.fault :: rest →
    ∃ t : State, runSteps (j + 1) s = .next t ∧ t.run = .idle ∧ t.life = .failed ∧
      t.trace = s.trace ++ (splitEvents P).take (j + 1) ++
        [Event.resp (respByte0 t.result.kind .failed) (respByte1 t.result.pin t.result.stage)] ∧
      t.result.stage = stage r.op ∧ t.pins.rst = s.pins.rst ∧
      some (t.result.kind, t.result.pin, t.pins.cs1, t.pins.cs2) =
        [(Kind.pinFault, PinTag.cs1, Latch.unknown, s.pins.cs2),
         (Kind.busFault, PinTag.noPin, Latch.low, s.pins.cs2),
         (Kind.pinFault, PinTag.cs1, Latch.unknown, s.pins.cs2),
         (Kind.pinFault, PinTag.cs2, Latch.high, Latch.unknown),
         (Kind.pinFault, PinTag.cs2, Latch.high, Latch.unknown),
         (Kind.busFault, PinTag.noPin, Latch.high, Latch.low),
         (Kind.pinFault, PinTag.cs1, Latch.unknown, Latch.low),
         (Kind.pinFault, PinTag.cs2, Latch.high, Latch.unknown)][j]?

/-- Any micro-program, from any point: with every answer `ok`, and each busy wait seeing any number of
not-ready answers below the bound and then `ready`, the remaining micro-operations are performed in
order, two more steps for each not-ready answer, with exactly their events, and nothing but the trace,
the pins, `UPC` and the inputs changes (R61 (a), R109, R146). -/
def Obligations.FaultFreeRunPerformsTheProgram : Prop :=
  ∀ (s : State) (r : RunRec) (waits : List Nat) (as : List Answer) (ls : List Level),
    s.run = .busy r → r.upc ≤ r.mp.length → r.pollPh = .read → r.polls = 0 →
    waits.length = waitsIn (r.mp.drop r.upc) → (∀ k ∈ waits, belowBound s.cfg k) →
    s.env.answers = List.replicate (answersTaken (r.mp.drop r.upc)) Answer.ok ++ as →
    s.env.levels = (waits.map (waitLevels s.cfg)).flatten ++ ls →
    ∃ t : State, runSteps (r.mp.length - r.upc + 2 * waits.sum) s = .next t ∧
      t.trace = s.trace ++ eventsOf s.cfg (r.mp.drop r.upc) waits ∧
      t.pins = pinsAfter s.pins (r.mp.drop r.upc) ∧
      t.run = .busy { r with upc := r.mp.length } ∧
      t.life = s.life ∧ t.result = s.result ∧ t.cfg = s.cfg ∧ t.params = s.params ∧
      t.env.frames = s.env.frames ∧ t.env.answers = as ∧ t.env.levels = ls

/-- Any micro-program, cut at its first fault: the answer to the SET or XFER at index `j` is `fault`,
every earlier one `ok`, and each busy wait before it sees any number of not-ready answers below the
bound and then `ready`; then the port events are those of the micro-operations up to and with `j`,
nothing follows but the response, and the operation is over and `Failed` (R61 (a), R206; decisions
D4, D12). -/
def Obligations.FirstFaultCutsTheProgram : Prop :=
  ∀ (s : State) (r : RunRec) (j : Nat) (m : MicroOp) (waits : List Nat) (as : List Answer)
    (ls : List Level), s.run = .busy r → r.upc ≤ j → r.mp[j]? = some m → answersTaken [m] = 1 →
    r.pollPh = .read → r.polls = 0 →
    waits.length = waitsIn ((r.mp.drop r.upc).take (j - r.upc)) →
    (∀ k ∈ waits, belowBound s.cfg k) →
    s.env.answers =
      List.replicate (answersTaken ((r.mp.drop r.upc).take (j - r.upc))) Answer.ok ++ Answer.fault :: as →
    s.env.levels = (waits.map (waitLevels s.cfg)).flatten ++ ls →
    ∃ t : State, runSteps (j - r.upc + 2 * waits.sum + 1) s = .next t ∧ t.run = .idle ∧
      t.life = .failed ∧ t.result.stage = stage r.op ∧ t.result.kind ≠ .ok ∧
      t.trace = s.trace ++ eventsOf s.cfg ((r.mp.drop r.upc).take (j - r.upc)) waits ++
        [MicroOp.event m,
         Event.resp (respByte0 t.result.kind .failed) (respByte1 t.result.pin t.result.stage)] ∧
      t.env.frames = s.env.frames

/-! ## Whole operations (42 to 46) -/

/-- RESET from the frame to the response: the pulse train, `LIFE = Reset`, `RST` low, chip-selects
untouched (R173, R132; decisions D2, D3, D6). -/
def Obligations.ResetRunsToCompletion : Prop :=
  ∀ (s : State) (rest : List Frame) (as : List Answer), s.run = .idle →
    s.env.frames = [0x01] :: rest → s.env.answers = [Answer.ok, .ok, .ok, .ok] ++ as →
    ∃ t : State, runSteps 9 s = .next t ∧
      t.trace = s.trace ++ [Event.cmd [0x01]] ++ resetEvents s.params ++ [Event.resp 0x01 0x01] ∧
      t.life = .reset ∧ t.result = ⟨.ok, .noPin, .reset⟩ ∧ t.run = .idle ∧
      t.pins = { s.pins with rst := .low } ∧ t.env.frames = rest

/-- WAIT_BUSY whose pin is not ready `k` times and then ready, within the bound if there is one:
`k + 1` reads and `k` sleeps, alternating; `LIFE` unchanged (R146, R174; decisions D2, D3, D6). -/
def Obligations.WaitBusyEndsWhenReady : Prop :=
  ∀ (s : State) (k : Nat) (rest : List Frame) (ls : List Level), s.run = .idle →
    (s.cfg.strict = true → s.life ≠ .failed) → s.env.frames = [0x02] :: rest →
    s.env.levels =
      List.replicate k (otherLevel s.cfg.readyLevel) ++ s.cfg.readyLevel :: ls →
    (∀ n, s.cfg.maxPolls = some n → k < n) →
    ∃ t : State, runSteps (2 * k + 3) s = .next t ∧
      t.trace = s.trace ++ [Event.cmd [0x02]] ++
        (List.replicate k [Event.busyRead, Event.delay s.cfg.pollRateMs]).flatten ++ [Event.busyRead] ++
        [Event.resp (respByte0 .ok s.life) 0x02] ∧
      t.life = s.life ∧ t.result = ⟨.ok, .noPin, .waitBusy⟩ ∧ t.run = .idle ∧
      t.pins = s.pins ∧ t.env.frames = rest ∧ t.env.levels = ls

/-- WAIT_BUSY with the bound `n` and a pin that is not ready `n` times: `n` reads, `n` sleeps, then
`Timeout` and `Failed` (R145, R146, R203, R206; decisions D2, D3, D4, D6, D10; log entry 18). -/
def Obligations.WaitBusyTimesOut : Prop :=
  ∀ (s : State) (n : Nat) (rest : List Frame) (ls : List Level), s.run = .idle →
    (s.cfg.strict = true → s.life ≠ .failed) → s.env.frames = [0x02] :: rest →
    s.cfg.maxPolls = some n → 1 ≤ n →
    s.env.levels = List.replicate n (otherLevel s.cfg.readyLevel) ++ ls →
    ∃ t : State, runSteps (2 * n + 1) s = .next t ∧
      t.trace = s.trace ++ [Event.cmd [0x02]] ++
        (List.replicate n [Event.busyRead, Event.delay s.cfg.pollRateMs]).flatten ++
        [Event.resp 0x36 0x02] ∧
      t.life = .failed ∧ t.result = ⟨.timeout, .noPin, .waitBusy⟩ ∧ t.run = .idle ∧
      t.pins = s.pins ∧ t.env.frames = rest ∧ t.env.levels = ls

/-- The busy wait returns if and only if the pin becomes ready: a step inside it advances `UPC` only in
the read phase and only on `ready`; the only other exit is `Timeout`, and none without a bound;
without a bound, `k` reads that answer not ready leave it where it was, for every `k`, and a read that
answers ready after them ends it (R147). -/
def Obligations.BusyWaitNeverReturnsWhileNotReady : Prop :=
  (∀ (s t : State) (r q : RunRec), s.run = .busy r → r.mp[r.upc]? = some .poll →
    step s = .next t → t.run = .busy q → q.upc ≠ r.upc →
    q.upc = r.upc + 1 ∧ r.pollPh = .read ∧ s.level = s.cfg.readyLevel) ∧
  (∀ (s t : State) (r : RunRec), s.run = .busy r → r.mp[r.upc]? = some .poll →
    step s = .next t → t.run = .idle →
    t.result.kind = .timeout ∧ s.cfg.maxPolls ≠ none) ∧
  (∀ (s : State) (r : RunRec) (k : Nat) (ls : List Level), s.run = .busy r →
    r.mp[r.upc]? = some .poll → r.pollPh = .read → s.cfg.maxPolls = none →
    s.env.levels = List.replicate k (otherLevel s.cfg.readyLevel) ++ ls →
    ∃ t : State, runSteps (2 * k) s = .next t ∧
      (∃ n, t.run = .busy { r with polls := n }) ∧ t.life = s.life ∧
      t.result = s.result ∧ t.env.levels = ls ∧
      t.trace = s.trace ++
        (List.replicate k [Event.busyRead, Event.delay s.cfg.pollRateMs]).flatten) ∧
  (∀ (s : State) (r : RunRec) (k : Nat) (ls : List Level), s.run = .busy r →
    r.mp[r.upc]? = some .poll → r.pollPh = .read → s.cfg.maxPolls = none →
    s.env.levels = List.replicate k (otherLevel s.cfg.readyLevel) ++ s.cfg.readyLevel :: ls →
    ∃ t : State, runSteps (2 * k + 1) s = .next t ∧
      t.run = .busy { r with upc := r.upc + 1, polls := 0 } ∧ t.life = s.life ∧
      t.result = s.result ∧ t.env.levels = ls)

/-- POWER_ON from the frame to the response, with every answer `ok` and the waits seeing any `k1` and
`k2` not-ready answers below the bound: PON, wait, settling delay, DRF, wait, POF, no wait, 27 events
and two more for each not-ready answer; `LIFE = PoweredOn` (R150 to R152; decisions D2, D3, D5; the
order of raising the chip-selects in the events is decision D8, log entry 17). -/
def Obligations.PowerOnRunsToCompletion : Prop :=
  ∀ (s : State) (k1 k2 : Nat) (rest : List Frame) (as : List Answer) (ls : List Level),
    s.run = .idle → (s.cfg.strict = true → s.life ≠ .failed) → s.env.frames = [0x03] :: rest →
    1 ≤ s.params.tPonSettleMs → s.env.answers = List.replicate 24 Answer.ok ++ as →
    s.env.levels = waitLevels s.cfg k1 ++ waitLevels s.cfg k2 ++ ls →
    belowBound s.cfg k1 → belowBound s.cfg k2 →
    ∃ (t : State) (es : List Event), runSteps (29 + 2 * (k1 + k2)) s = .next t ∧
      t.trace = s.trace ++ [Event.cmd [0x03]] ++ es ++ [Event.resp 0x02 0x03] ∧
      es = splitEvents ⟨s.params.ponCmd, []⟩ ++ waitEvents s.cfg k1 ++
        [Event.delay s.params.tPonSettleMs] ++ splitEvents ⟨s.params.drfCmd, [0x00]⟩ ++
        waitEvents s.cfg k2 ++ splitEvents ⟨s.params.pofCmd, [0x00]⟩ ∧
      es.length = 27 + 2 * (k1 + k2) ∧
      t.life = .poweredOn ∧ t.result = ⟨.ok, .noPin, .powerOn⟩ ∧ t.run = .idle ∧
      t.pins = { s.pins with cs1 := .high, cs2 := .high } ∧ t.env.frames = rest

/-- INIT from the frame to the response, for a table of any length, with every answer `ok` and the
wait seeing any `k` not-ready answers below the bound: the pulse train, the wait with its `k` sleeps,
then the entries in order, each sent twice, `7 + (2k + 1) + 8n` events; `LIFE = Initialized`, `RST` low
(R160, R162 to R164, R132; decisions D2, D3; one reset and one wait are decisions D19, D20, log entry
25; the order of raising the chip-selects in the events is decision D8, log entry 17). -/
def Obligations.InitRunsToCompletion : Prop :=
  ∀ (s : State) (k : Nat) (rest : List Frame) (as : List Answer) (ls : List Level), s.run = .idle →
    s.env.frames = [0x04] :: rest →
    s.env.answers = List.replicate (4 + 8 * s.params.initTable.length) Answer.ok ++ as →
    s.env.levels = waitLevels s.cfg k ++ ls → belowBound s.cfg k →
    ∃ (t : State) (es : List Event),
      runSteps (10 + 8 * s.params.initTable.length + 2 * k) s = .next t ∧
      t.trace = s.trace ++ [Event.cmd [0x04]] ++ es ++ [Event.resp 0x03 0x04] ∧
      es = resetEvents s.params ++ waitEvents s.cfg k ++
        (s.params.initTable.map splitEvents).flatten ∧
      es.length = 7 + (2 * k + 1) + 8 * s.params.initTable.length ∧
      t.life = .initialized ∧ t.result = ⟨.ok, .noPin, .init⟩ ∧ t.run = .idle ∧
      t.pins.rst = .low ∧ t.env.frames = rest

/-- INIT with a failing bus write at the entry of index `k` (the document's entry `k + 1`), at its
first or its second issuance, the wait before the table seeing any `w` not-ready answers below the
bound: it aborts there, the writes so far are `2k + 1` or `2k + 2`, and no further one is issued (R165;
decisions D2, D3, D4, D12, D13; one reset and one wait are decisions D19, D20, log entry 25; the order
of raising the chip-selects in the events is decision D8, log entry 17). -/
def Obligations.InitAbortsAtTheFailingEntry : Prop :=
  ∀ (s : State) (k w : Nat) (P : Payload) (rest : List Frame) (as : List Answer)
    (ls : List Level) (second : Bool), s.run = .idle → s.env.frames = [0x04] :: rest →
    s.params.initTable[k]? = some P →
    s.env.answers =
      List.replicate (4 + 8 * k + (if second then 5 else 1)) Answer.ok ++ Answer.fault :: as →
    s.env.levels = waitLevels s.cfg w ++ ls → belowBound s.cfg w →
    ∃ (t : State) (es : List Event),
      runSteps (9 + 8 * k + 2 * w + (if second then 6 else 2)) s = .next t ∧
      t.trace = s.trace ++ [Event.cmd [0x04]] ++ es ++ [Event.resp 0x16 0x04] ∧
      es = resetEvents s.params ++ waitEvents s.cfg w ++
        ((s.params.initTable.take k).map splitEvents).flatten ++
        (splitEvents P).take (if second then 6 else 2) ∧
      (es.filter Event.isBusWrite).length = 2 * k + (if second then 2 else 1) ∧
      t.run = .idle ∧ t.life = .failed ∧ t.result = ⟨.busFault, .noPin, .init⟩ ∧
      t.env.frames = rest

/-- WRITE from the frame to the response, from `Initialized`, or from any lifecycle state where the
lifecycle is not enforced, with every answer `ok`: one split write, `LIFE` as it was, both selects high
(R177; decisions D2, D3, D5, D25; the order of raising the chip-selects in the events is decision D8,
log entry 17). That an idle sequencer is not at `Writing` is StepKeepsTheInvariant. -/
def Obligations.WriteRunsToCompletion : Prop :=
  ∀ (s : State) (P : Payload) (rest : List Frame) (as : List Answer), s.run = .idle →
    (s.cfg.strict = true → s.life = .initialized) → s.life ≠ .writing →
    s.env.frames = (0x05 :: P.bytes) :: rest →
    P.length ≤ s.params.maxPayload → s.env.answers = List.replicate 8 Answer.ok ++ as →
    ∃ t : State, runSteps 10 s = .next t ∧
      t.trace = s.trace ++ [Event.cmd (0x05 :: P.bytes)] ++ splitEvents P ++
        [Event.resp (respByte0 .ok s.life) 0x05] ∧
      t.life = s.life ∧ t.result = ⟨.ok, .noPin, .write⟩ ∧ t.run = .idle ∧
      t.pins = { s.pins with cs1 := .high, cs2 := .high } ∧ t.env.frames = rest

/-- SLEEP from the frame to the response, from `Initialized`, or from any lifecycle state where the
lifecycle is not enforced, with every answer `ok`: the deep-sleep payload to both domains, then one
delay as the last event, no wait; `LIFE = Sleeping` (R178; decisions D2, D3, D5; the order of raising
the chip-selects in the events is decision D8, log entry 17). -/
def Obligations.SleepRunsToCompletion : Prop :=
  ∀ (s : State) (rest : List Frame) (as : List Answer), s.run = .idle →
    (s.cfg.strict = true → s.life = .initialized) → s.env.frames = [0x06] :: rest →
    1 ≤ s.params.tSleepMs → s.env.answers = List.replicate 8 Answer.ok ++ as →
    ∃ t : State, runSteps 11 s = .next t ∧
      t.trace = s.trace ++ [Event.cmd [0x06]] ++ splitEvents s.params.dslpPayload ++
        [Event.delay s.params.tSleepMs] ++ [Event.resp 0x05 0x06] ∧
      t.life = .sleeping ∧ t.result = ⟨.ok, .noPin, .sleep⟩ ∧ t.run = .idle ∧
      t.pins = { s.pins with cs1 := .high, cs2 := .high } ∧ t.env.frames = rest

/-! ## Construction and the invariant (R31, R33, R230) -/

/-- Construction: a well-formed parameter set gives the state of R31 and an ill-formed one is refused
(R7, R230; decisions D11, D22, D23, D26); the reset state is the one of R31 with the spec's defaults
and the document's constants (decisions D5, D9, D10, D18; log entries 3, 4). -/
def Obligations.ConstructionGivesTheResetState : Prop :=
  (∀ (c : Cfg) (p : Params), p.WellFormed c → ∃ s : State, construct c p = .next s ∧
    s.cfg = c ∧ s.params = p ∧ s.life = .uninitialized ∧
    s.result = ⟨.ok, .noPin, .noStage⟩ ∧ s.run = .idle ∧
    (∀ q : Pin, s.pins.get q = .unknown) ∧ s.trace = []) ∧
  (∀ (c : Cfg) (p : Params), ¬ p.WellFormed c →
    construct c p = .refused .illFormedParameters) ∧
  (construct Config.cfg Config.params = .next State.reset ∧
    State.reset.cfg = ⟨5, .high, none, true⟩ ∧ State.reset.params.tResetMs = 3 ∧
    State.reset.params.tPonSettleMs = 50 ∧ State.reset.params.tSleepMs = 2000 ∧
    State.reset.params.dslpPayload.bytes = [0x07, 0xA5])

/-- The invariant holds of every constructed state, the reset state among them (R31, R33). -/
def Obligations.ConstructedStatesMeetTheInvariant : Prop :=
  (∀ (c : Cfg) (p : Params), p.WellFormed c → Inv (State.constructed c p)) ∧ Inv State.reset

/-- Every step keeps the invariant: `UPC` in range of the micro-program of R108, `Writing` only under
WRITE, a WRITE's payload within `MAX_PAYLOAD`, a pin named exactly by a pin fault, the busy wait's
count within its bound, and every latch at the level its last SET drove (R23, R25, R26, R28, R33, R177).
That the count runs without a bound too is log entry 19. -/
def Obligations.StepKeepsTheInvariant : Prop :=
  ∀ s t : State, Inv s → step s = .next t → Inv t

/-- From a state that meets the invariant the sequencer never stops: every step answers a next state
(R100). -/
def Obligations.StepNeverStops : Prop :=
  ∀ s : State, Inv s → ∃ t, step s = .next t

/-- Chip-selects by position in a split write, wherever it stands in the micro-program (it begins at
index `a`): before and after the first bus write the primary select is low until it is raised; before
and after the second the primary is high and the secondary low until it is raised; between the two
issuances and after the split write both are high. Every bus write of a micro-program stands at one of
those two positions of a split write; and when it and the two SETs after it are answered `ok`, the
three steps send it, raise both selects and emit nothing else (R57, R122). That the primary select is
raised before the secondary is decision D8 (log entry 17). -/
def Obligations.ChipSelectIsLowDuringItsIssuance : Prop :=
  (∀ (s : State) (r : RunRec) (P : Payload) (a : Nat), Inv s → s.run = .busy r →
    (r.mp.drop a).take 8 = split P →
    (r.upc = a + 1 ∨ r.upc = a + 2 → s.pins.cs1 = .low) ∧
    (r.upc = a + 4 → s.pins.cs1 = .high ∧ s.pins.cs2 = .high) ∧
    (r.upc = a + 5 ∨ r.upc = a + 6 → s.pins.cs1 = .high ∧ s.pins.cs2 = .low) ∧
    (r.upc = a + 8 → s.pins.cs1 = .high ∧ s.pins.cs2 = .high)) ∧
  (∀ (s : State) (r : RunRec) (P : Payload), Inv s → s.run = .busy r →
    r.mp[r.upc]? = some (.xfer P) →
    ∃ a, (r.mp.drop a).take 8 = split P ∧ (r.upc = a + 1 ∨ r.upc = a + 5)) ∧
  (∀ (s : State) (r : RunRec) (P : Payload) (as : List Answer), Inv s → s.run = .busy r →
    r.mp[r.upc]? = some (.xfer P) → s.env.answers = [Answer.ok, .ok, .ok] ++ as →
    ∃ t : State, runSteps 3 s = .next t ∧ t.run = .busy { r with upc := r.upc + 3 } ∧
      t.pins.cs1 = .high ∧ t.pins.cs2 = .high ∧
      t.trace = s.trace ++ [Event.busWrite P, Event.pinSet .cs1 .high, Event.pinSet .cs2 .high])

/-- After an operation that completed: both chip-selects are high if its micro-program contains a
bus write, and `RST` is low after RESET and INIT (R33 (c), (d), derived there). -/
def Obligations.CompletionLeavesThePins : Prop :=
  ∀ (s t : State) (r : RunRec), Inv s → s.run = .busy r → r.upc = r.mp.length →
    step s = .next t →
    t.result.kind = .ok ∧
    ((∃ P, .xfer P ∈ r.mp) → t.pins.cs1 = .high ∧ t.pins.cs2 = .high) ∧
    ((r.op = .reset ∨ r.op = .init) → t.pins.rst = .low)

/-! ## Frames and whole-machine rules -/

/-- No instruction and no step writes the configuration, the parameters or the tables built from them;
the micro-program is fixed at acceptance; and nothing the host presents after that changes the
operation in flight (R64). -/
def Obligations.ConfigurationNeverChanges : Prop :=
  (∀ (i : Instr) (s t : State), exec i s = .next t → t.cfg = s.cfg ∧ t.params = s.params) ∧
  (∀ s t : State, step s = .next t → t.cfg = s.cfg ∧ t.params = s.params) ∧
  (∀ (s t : State) (r q : RunRec), s.run = .busy r → step s = .next t → t.run = .busy q →
    q.op = r.op ∧ q.mp = r.mp) ∧
  (∀ (i : Instr) (s t : State) (r : RunRec), s.run = .busy r → i.channel = .command →
    exec i s = .next t → t.run = s.run)

/-- Frame of the command instructions (the seven host operations and the reserved codes): no output
latch, no input of the Bus Port and no port event; `LIFE` changes only by WRITE, from `Initialized`
to `Writing`; `RESULT` changes only in a rejection, which leaves the sequencer idle (R101, R204,
R205). -/
def Obligations.CommandsLeaveThePortAlone : Prop :=
  ∀ (i : Instr) (s t : State), i.channel = .command → exec i s = .next t →
    (∀ q : Pin, t.pins.get q = s.pins.get q) ∧ t.cfg = s.cfg ∧ t.params = s.params ∧
    portTrace t.trace = portTrace s.trace ∧ t.env.answers = s.env.answers ∧
    t.env.levels = s.env.levels ∧ t.env.draws = s.env.draws ∧
    (t.life ≠ s.life → (∃ P, i = .write P) ∧ s.life = .initialized ∧ t.life = .writing) ∧
    (t.result ≠ s.result → s.run = .idle ∧ t.run = .idle ∧ t.life = s.life)

/-- Frame of the micro-operations and the panel payloads: every latch but the one a SET drives, the
configuration, the parameters and the host's frames are unchanged; while the operation stays in
flight, so are `LIFE`, `RESULT`, `OP` and `MP` (R102 to R104, R124, R144, R145). -/
def Obligations.MicroOperationsLeaveTheRestAlone : Prop :=
  ∀ (i : Instr) (s t : State), (i.channel = .internal ∨ i.channel = .panel) →
    exec i s = .next t →
    (∀ q : Pin, (∀ l, i ≠ .set q l) → t.pins.get q = s.pins.get q) ∧
    t.cfg = s.cfg ∧ t.params = s.params ∧ t.env.frames = s.env.frames ∧
    ∃ r, s.run = .busy r ∧
      (t.run = .idle ∧ t.life = .failed ∧ t.result.stage = stage r.op ∨
       ∃ q, t.run = .busy q ∧ q.op = r.op ∧ q.mp = r.mp ∧
         t.life = s.life ∧ t.result = s.result)

/-- A micro step emits exactly one port event and takes exactly one answer, none for a `Delay`; only
an abort adds the response (R13, R100). -/
def Obligations.OneEventPerMicroStep : Prop :=
  ∀ (s t : State) (r : RunRec), s.run = .busy r → r.upc < r.mp.length → step s = .next t →
    ∃ e : Event, e.isPort = true ∧
      ((t.trace = s.trace ++ [e] ∧ t.run ≠ .idle) ∨
       (∃ b0 b1, t.trace = s.trace ++ [e, Event.resp b0 b1] ∧ t.run = .idle)) ∧
      t.env.draws = s.env.draws + (match e with | .delay _ => 0 | _ => 1)

/-- A fault is never ignored and nothing is retried: on a `fault` answer the faulted event is the last
port event of the operation, and the result, which is also what the response reports, is not `Ok`;
and while an operation stays in flight its
micro-program stays and `UPC` only stands still or advances by one (R217). -/
def Obligations.FaultsAreNeverIgnored : Prop :=
  (∀ (s t : State) (r : RunRec) (m : MicroOp), s.run = .busy r → r.mp[r.upc]? = some m →
    answersTaken [m] = 1 → s.answer = .fault → step s = .next t →
    t.run = .idle ∧ t.result.kind ≠ .ok ∧
    t.trace = s.trace ++ [MicroOp.event m,
      Event.resp (respByte0 t.result.kind t.life) (respByte1 t.result.pin t.result.stage)]) ∧
  (∀ (s t : State) (r q : RunRec), s.run = .busy r → step s = .next t → t.run = .busy q →
    q.op = r.op ∧ q.mp = r.mp ∧ (q.upc = r.upc ∨ q.upc = r.upc + 1))

/-- `LIFE` is written only by the accept step of a WRITE from `Initialized`, by the complete step, and
by the abort (R22, R23; decisions D4, D25). -/
def Obligations.LifeHasThreeWriters : Prop :=
  ∀ s t : State, step s = .next t → t.life ≠ s.life →
    (s.run = .idle ∧ s.life = .initialized ∧ t.life = .writing ∧
      ∃ q P, t.run = .busy q ∧ q.op = .write P) ∨
    (∃ r, s.run = .busy r ∧ r.upc = r.mp.length ∧ t.life = post r.op s.life ∧ t.run = .idle) ∨
    (∃ r, s.run = .busy r ∧ r.upc < r.mp.length ∧ t.life = .failed ∧ t.run = .idle ∧
      t.result.kind ≠ .ok)

/-- `PINS` is written only by the SET micro-operation, and only on its own pin (R28; decision D11). -/
def Obligations.PinsHaveOneWriter : Prop :=
  ∀ (s t : State) (q : Pin), step s = .next t → t.pins.get q ≠ s.pins.get q →
    ∃ r l, s.run = .busy r ∧ r.mp[r.upc]? = some (.set q l) ∧
      ((s.answer = .ok ∧ t.pins.get q = latchOf l) ∨
       (s.answer = .fault ∧ t.pins.get q = .unknown))

/-- Every command frame is answered by exactly one response frame: each step keeps the number of
frames taken equal to the number answered plus the one in flight, and a changed result is reported at
once (R76, R180; decisions D3, D21). -/
def Obligations.EveryCommandIsAnsweredOnce : Prop :=
  ∀ s t : State, step s = .next t →
    (t.trace.filter Event.isCmd).length + (s.trace.filter Event.isResp).length + s.run.count =
      (s.trace.filter Event.isCmd).length + (t.trace.filter Event.isResp).length + t.run.count ∧
    (t.result ≠ s.result → t.run = .idle ∧
      t.trace.getLast? = some (.resp (respByte0 t.result.kind t.life)
        (respByte1 t.result.pin t.result.stage)))

/-- The polarity of the busy pin lives in the Bus Port alone: turning over `READY_LEVEL` and every
level read changes no step otherwise (R52; decision D9). -/
def Obligations.BusyPolarityIsInvisible : Prop :=
  ∀ s t : State, s.env.levels ≠ [] → step s = .next t →
    step s.flipBusy = .next t.flipBusy

/-- The designer's registers of R32 determine the next micro-operation, at every position of every
micro-program and for every table (R32, derived there). The payload buffer of R27 always has
`MAX_PAYLOAD` bytes; at each bus write its first `PLEN` bytes are the payload sent; and within a split
write, both bus writes included, no step changes them (R27, decision D15; that they are computed and
not stored is log entry 20, that the buffer is loaded before step 0, and its free value elsewhere, are
the model's choice, log entry 28). -/
def Obligations.DesignersRegistersAgree : Prop :=
  (∀ (p : Params) (op : HostOp) (upc : Nat),
    (program p op)[upc]? = (SubBlock.at p op upc).bind fun b => b.microOp p op) ∧
  (∀ s : State, s.pbuf.length = s.params.maxPayload) ∧
  (∀ (s : State) (r : RunRec) (P : Payload), Inv s → s.run = .busy r →
    r.mp[r.upc]? = some (.xfer P) → s.plen = P.length ∧ s.pbuf.take s.plen = P.bytes) ∧
  (∀ (s t : State) (r q : RunRec) (idx a b : Nat), Inv s → s.run = .busy r →
    SubBlock.at s.params r.op r.upc = some (.table idx (.split a)) → step s = .next t →
    t.run = .busy q → SubBlock.at t.params q.op q.upc = some (.table idx (.split b)) →
    t.plen = s.plen ∧ t.pbuf.take t.plen = s.pbuf.take s.plen)
end

