-- ==== Sys2Proof/Laws/State.lean ====
section
/-! SUPPORT. One lemma per field per update of the state, true by unfolding, so that no later proof
unfolds a record update; and the same for the output latches. -/

namespace Sys2Proof.Machine

@[simp] theorem Pins.get_put (ps : Pins) (p q : Pin) (l : Latch) :
    (ps.put p l).get q = if q = p then l else ps.get q := by
  cases p <;> cases q <;> rfl

namespace State

section emit

variable (s : State) (e : Event)

@[simp] theorem emit_cfg : (s.emit e).cfg = s.cfg := rfl
@[simp] theorem emit_params : (s.emit e).params = s.params := rfl
@[simp] theorem emit_life : (s.emit e).life = s.life := rfl
@[simp] theorem emit_result : (s.emit e).result = s.result := rfl
@[simp] theorem emit_run : (s.emit e).run = s.run := rfl
@[simp] theorem emit_pins : (s.emit e).pins = s.pins := rfl
@[simp] theorem emit_trace : (s.emit e).trace = s.trace ++ [e] := rfl
@[simp] theorem emit_env : (s.emit e).env = s.env := rfl

end emit

section setPin

variable (s : State) (p : Pin) (l : Latch)

@[simp] theorem setPin_cfg : (s.setPin p l).cfg = s.cfg := rfl
@[simp] theorem setPin_params : (s.setPin p l).params = s.params := rfl
@[simp] theorem setPin_life : (s.setPin p l).life = s.life := rfl
@[simp] theorem setPin_result : (s.setPin p l).result = s.result := rfl
@[simp] theorem setPin_run : (s.setPin p l).run = s.run := rfl
@[simp] theorem setPin_pins : (s.setPin p l).pins = s.pins.put p l := rfl
@[simp] theorem setPin_trace : (s.setPin p l).trace = s.trace := rfl
@[simp] theorem setPin_env : (s.setPin p l).env = s.env := rfl

end setPin

section setLife

variable (s : State) (l : Life)

@[simp] theorem setLife_cfg : (s.setLife l).cfg = s.cfg := rfl
@[simp] theorem setLife_params : (s.setLife l).params = s.params := rfl
@[simp] theorem setLife_life : (s.setLife l).life = l := rfl
@[simp] theorem setLife_result : (s.setLife l).result = s.result := rfl
@[simp] theorem setLife_run : (s.setLife l).run = s.run := rfl
@[simp] theorem setLife_pins : (s.setLife l).pins = s.pins := rfl
@[simp] theorem setLife_trace : (s.setLife l).trace = s.trace := rfl
@[simp] theorem setLife_env : (s.setLife l).env = s.env := rfl

end setLife

section setResult

variable (s : State) (r : Result)

@[simp] theorem setResult_cfg : (s.setResult r).cfg = s.cfg := rfl
@[simp] theorem setResult_params : (s.setResult r).params = s.params := rfl
@[simp] theorem setResult_life : (s.setResult r).life = s.life := rfl
@[simp] theorem setResult_result : (s.setResult r).result = r := rfl
@[simp] theorem setResult_run : (s.setResult r).run = s.run := rfl
@[simp] theorem setResult_pins : (s.setResult r).pins = s.pins := rfl
@[simp] theorem setResult_trace : (s.setResult r).trace = s.trace := rfl
@[simp] theorem setResult_env : (s.setResult r).env = s.env := rfl

end setResult

section setRun

variable (s : State) (r : Run)

@[simp] theorem setRun_cfg : (s.setRun r).cfg = s.cfg := rfl
@[simp] theorem setRun_params : (s.setRun r).params = s.params := rfl
@[simp] theorem setRun_life : (s.setRun r).life = s.life := rfl
@[simp] theorem setRun_result : (s.setRun r).result = s.result := rfl
@[simp] theorem setRun_run : (s.setRun r).run = r := rfl
@[simp] theorem setRun_pins : (s.setRun r).pins = s.pins := rfl
@[simp] theorem setRun_trace : (s.setRun r).trace = s.trace := rfl
@[simp] theorem setRun_env : (s.setRun r).env = s.env := rfl

end setRun

section takeAnswer

variable (s : State)

@[simp] theorem takeAnswer_cfg : (s.takeAnswer).cfg = s.cfg := rfl
@[simp] theorem takeAnswer_params : (s.takeAnswer).params = s.params := rfl
@[simp] theorem takeAnswer_life : (s.takeAnswer).life = s.life := rfl
@[simp] theorem takeAnswer_result : (s.takeAnswer).result = s.result := rfl
@[simp] theorem takeAnswer_run : (s.takeAnswer).run = s.run := rfl
@[simp] theorem takeAnswer_pins : (s.takeAnswer).pins = s.pins := rfl
@[simp] theorem takeAnswer_trace : (s.takeAnswer).trace = s.trace := rfl
@[simp] theorem takeAnswer_env :
    (s.takeAnswer).env =
    { s.env with answers := s.env.answers.tail, draws := s.env.draws + 1 } := rfl

end takeAnswer

section takeLevel

variable (s : State)

@[simp] theorem takeLevel_cfg : (s.takeLevel).cfg = s.cfg := rfl
@[simp] theorem takeLevel_params : (s.takeLevel).params = s.params := rfl
@[simp] theorem takeLevel_life : (s.takeLevel).life = s.life := rfl
@[simp] theorem takeLevel_result : (s.takeLevel).result = s.result := rfl
@[simp] theorem takeLevel_run : (s.takeLevel).run = s.run := rfl
@[simp] theorem takeLevel_pins : (s.takeLevel).pins = s.pins := rfl
@[simp] theorem takeLevel_trace : (s.takeLevel).trace = s.trace := rfl
@[simp] theorem takeLevel_env :
    (s.takeLevel).env =
    { s.env with levels := s.env.levels.tail, draws := s.env.draws + 1 } := rfl

end takeLevel

section takeFrame

variable (s : State) (F : Frame) (rest : List Frame)

@[simp] theorem takeFrame_cfg : (s.takeFrame F rest).cfg = s.cfg := rfl
@[simp] theorem takeFrame_params : (s.takeFrame F rest).params = s.params := rfl
@[simp] theorem takeFrame_life : (s.takeFrame F rest).life = s.life := rfl
@[simp] theorem takeFrame_result : (s.takeFrame F rest).result = s.result := rfl
@[simp] theorem takeFrame_run : (s.takeFrame F rest).run = s.run := rfl
@[simp] theorem takeFrame_pins : (s.takeFrame F rest).pins = s.pins := rfl
@[simp] theorem takeFrame_trace : (s.takeFrame F rest).trace = s.trace ++ [.cmd F] := rfl
@[simp] theorem takeFrame_env : (s.takeFrame F rest).env = { s.env with frames := rest } := rfl

end takeFrame

section holdFrame

variable (s : State) (F : Frame)

@[simp] theorem holdFrame_cfg : (s.holdFrame F).cfg = s.cfg := rfl
@[simp] theorem holdFrame_params : (s.holdFrame F).params = s.params := rfl
@[simp] theorem holdFrame_life : (s.holdFrame F).life = s.life := rfl
@[simp] theorem holdFrame_result : (s.holdFrame F).result = s.result := rfl
@[simp] theorem holdFrame_run : (s.holdFrame F).run = s.run := rfl
@[simp] theorem holdFrame_pins : (s.holdFrame F).pins = s.pins := rfl
@[simp] theorem holdFrame_trace : (s.holdFrame F).trace = s.trace := rfl
@[simp] theorem holdFrame_env : (s.holdFrame F).env = { s.env with frames := s.env.frames ++ [F] } := rfl

end holdFrame

section sendResp

variable (s : State) (k : Kind) (l : Life) (p : PinTag) (st : Stage)

@[simp] theorem sendResp_cfg : (s.sendResp k l p st).cfg = s.cfg := rfl
@[simp] theorem sendResp_params : (s.sendResp k l p st).params = s.params := rfl
@[simp] theorem sendResp_life : (s.sendResp k l p st).life = s.life := rfl
@[simp] theorem sendResp_result : (s.sendResp k l p st).result = s.result := rfl
@[simp] theorem sendResp_run : (s.sendResp k l p st).run = s.run := rfl
@[simp] theorem sendResp_pins : (s.sendResp k l p st).pins = s.pins := rfl
@[simp] theorem sendResp_trace : (s.sendResp k l p st).trace = s.trace ++ [.resp (respByte0 k l) (respByte1 p st)] := rfl
@[simp] theorem sendResp_env : (s.sendResp k l p st).env = s.env := rfl

end sendResp

section respond

variable (s : State)

@[simp] theorem respond_cfg : (s.respond).cfg = s.cfg := rfl
@[simp] theorem respond_params : (s.respond).params = s.params := rfl
@[simp] theorem respond_life : (s.respond).life = s.life := rfl
@[simp] theorem respond_result : (s.respond).result = s.result := rfl
@[simp] theorem respond_run : (s.respond).run = s.run := rfl
@[simp] theorem respond_pins : (s.respond).pins = s.pins := rfl
@[simp] theorem respond_trace :
    (s.respond).trace =
    s.trace ++ [.resp (respByte0 s.result.kind s.life)
      (respByte1 s.result.pin s.result.stage)] := rfl
@[simp] theorem respond_env : (s.respond).env = s.env := rfl

end respond

section reject

variable (s : State) (k : Kind) (st : Stage)

@[simp] theorem reject_cfg : (s.reject k st).cfg = s.cfg := rfl
@[simp] theorem reject_params : (s.reject k st).params = s.params := rfl
@[simp] theorem reject_life : (s.reject k st).life = s.life := rfl
@[simp] theorem reject_result : (s.reject k st).result = ⟨k, .noPin, st⟩ := rfl
@[simp] theorem reject_run : (s.reject k st).run = s.run := rfl
@[simp] theorem reject_pins : (s.reject k st).pins = s.pins := rfl
@[simp] theorem reject_trace :
    (s.reject k st).trace =
    s.trace ++ [.resp (respByte0 k s.life) (respByte1 .noPin st)] := rfl
@[simp] theorem reject_env : (s.reject k st).env = s.env := rfl

end reject

section start

variable (s : State) (op : HostOp)

@[simp] theorem start_cfg : (s.start op).cfg = s.cfg := rfl
@[simp] theorem start_params : (s.start op).params = s.params := rfl
@[simp] theorem start_life : (s.start op).life = lifeInFlight op s.life := rfl
@[simp] theorem start_result : (s.start op).result = s.result := rfl
@[simp] theorem start_run : (s.start op).run = .busy ⟨op, program s.params op, 0, .read, 0⟩ := rfl
@[simp] theorem start_pins : (s.start op).pins = s.pins := rfl
@[simp] theorem start_trace : (s.start op).trace = s.trace := rfl
@[simp] theorem start_env : (s.start op).env = s.env := rfl

end start

section abort

variable (s : State) (f : MicroFault) (op : HostOp)

@[simp] theorem abort_cfg : (s.abort f op).cfg = s.cfg := rfl
@[simp] theorem abort_params : (s.abort f op).params = s.params := rfl
@[simp] theorem abort_life : (s.abort f op).life = .failed := rfl
@[simp] theorem abort_result : (s.abort f op).result = faultResult f op := rfl
@[simp] theorem abort_run : (s.abort f op).run = .idle := rfl
@[simp] theorem abort_pins : (s.abort f op).pins = s.pins := rfl
@[simp] theorem abort_trace :
    (s.abort f op).trace =
    s.trace ++ [.resp (respByte0 f.kind .failed)
      (respByte1 f.pin (stage op))] := rfl
@[simp] theorem abort_env : (s.abort f op).env = s.env := rfl

end abort

section complete

variable (s : State) (op : HostOp)

@[simp] theorem complete_cfg : (s.complete op).cfg = s.cfg := rfl
@[simp] theorem complete_params : (s.complete op).params = s.params := rfl
@[simp] theorem complete_life : (s.complete op).life = post op s.life := rfl
@[simp] theorem complete_result : (s.complete op).result = okResult op := rfl
@[simp] theorem complete_run : (s.complete op).run = .idle := rfl
@[simp] theorem complete_pins : (s.complete op).pins = s.pins := rfl
@[simp] theorem complete_trace :
    (s.complete op).trace =
    s.trace ++ [.resp (respByte0 .ok (post op s.life))
      (respByte1 .noPin (stage op))] := rfl
@[simp] theorem complete_env : (s.complete op).env = s.env := rfl

end complete

section advance

variable (s : State) (r : RunRec)

@[simp] theorem advance_cfg : (s.advance r).cfg = s.cfg := rfl
@[simp] theorem advance_params : (s.advance r).params = s.params := rfl
@[simp] theorem advance_life : (s.advance r).life = s.life := rfl
@[simp] theorem advance_result : (s.advance r).result = s.result := rfl
@[simp] theorem advance_run : (s.advance r).run = .busy { r with upc := r.upc + 1 } := rfl
@[simp] theorem advance_pins : (s.advance r).pins = s.pins := rfl
@[simp] theorem advance_trace : (s.advance r).trace = s.trace := rfl
@[simp] theorem advance_env : (s.advance r).env = s.env := rfl

end advance

/-- A listed answer is the environment's answer. -/
@[simp] theorem answer_cons (s : State) (a : Answer) (as : List Answer)
    (h : s.env.answers = a :: as) : s.answer = a := by
  simp [answer, h]

/-- A listed level is the level on the busy pin. -/
@[simp] theorem level_cons (s : State) (l : Level) (ls : List Level)
    (h : s.env.levels = l :: ls) : s.level = l := by
  simp [level, h]

/-- The busy pin reads ready exactly at `READY_LEVEL` (R52). -/
theorem ready_iff (s : State) : s.ready = true ↔ s.level = s.cfg.readyLevel := by
  simp [ready]

end State

end Sys2Proof.Machine
end

