-- ==== Sys2Proof/Laws/Ops.lean ====
section
/-! SUPPORT. One lemma per shared operation that says everything it can do, for proofs to cite
instead of unfolding it. -/

namespace Sys2Proof.Machine

/-- A micro-operation answers a next state exactly when an operation is in flight (R100). -/
theorem inFlight_eq_next_iff (act : RunRec → State → State) (s t : State) :
    inFlight act s = .next t ↔ ∃ r, s.run = .busy r ∧ act r s = t := by
  unfold inFlight
  cases h : s.run <;> simp

theorem inFlight_busy (act : RunRec → State → State) (s : State) (r : RunRec)
    (h : s.run = .busy r) : inFlight act s = .next (act r s) := by
  simp [inFlight, h]

theorem inFlight_idle (act : RunRec → State → State) (s : State) (h : s.run = .idle) :
    inFlight act s = .fault .noOperationInFlight := by
  simp [inFlight, h]

theorem whenIdle_idle (F : Frame) (act : State → State) (s : State) (h : s.run = .idle) :
    whenIdle F act s = act s := by
  simp [whenIdle, h]

/-- A frame presented while an operation is in flight is held (R180). -/
theorem whenIdle_busy (F : Frame) (act : State → State) (s : State) (r : RunRec)
    (h : s.run = .busy r) : whenIdle F act s = s.holdFrame F := by
  simp [whenIdle, h]

/-- R102: what SET can do. -/
theorem pinSetOp_cases (p : Pin) (l : Level) (r : RunRec) (s : State) :
    (s.answer = .ok ∧ pinSetOp p l r s =
      (((s.emit (.pinSet p l)).takeAnswer).setPin p (latchOf l)).advance r) ∨
    (s.answer = .fault ∧ pinSetOp p l r s =
      (((s.emit (.pinSet p l)).takeAnswer).setPin p .unknown).abort (.pinFault (pinTag p)) r.op) := by
  unfold pinSetOp
  cases h : s.answer
  · exact .inl ⟨rfl, rfl⟩
  · exact .inr ⟨rfl, rfl⟩

/-- R103: what XFER and the panel payloads can do. -/
theorem busWriteOp_cases (P : Payload) (r : RunRec) (s : State) :
    (s.answer = .ok ∧ busWriteOp P r s = ((s.emit (.busWrite P)).takeAnswer).advance r) ∨
    (s.answer = .fault ∧ busWriteOp P r s =
      ((s.emit (.busWrite P)).takeAnswer).abort .busFault r.op) := by
  unfold busWriteOp
  cases h : s.answer
  · exact .inl ⟨rfl, rfl⟩
  · exact .inr ⟨rfl, rfl⟩

/-- R144, R145: what POLL can do. -/
theorem pollOp_cases (r : RunRec) (s : State) :
    (r.pollPh = .read ∧ s.ready = true ∧ pollOp r s =
      ((s.emit .busyRead).takeLevel).advance { r with polls := 0 }) ∨
    (r.pollPh = .read ∧ s.ready = false ∧ pollOp r s =
      ((s.emit .busyRead).takeLevel).setRun
        (.busy { r with polls := r.polls + 1, pollPh := .sleep })) ∨
    (r.pollPh = .sleep ∧ boundReached s.cfg.maxPolls r.polls = true ∧ pollOp r s =
      (s.emit (.delay s.cfg.pollRateMs)).abort .timeout r.op) ∨
    (r.pollPh = .sleep ∧ boundReached s.cfg.maxPolls r.polls = false ∧ pollOp r s =
      (s.emit (.delay s.cfg.pollRateMs)).setRun (.busy { r with pollPh := .read })) := by
  cases hp : r.pollPh
  · cases hr : s.ready
    · exact .inr (.inl ⟨rfl, rfl, by simp [pollOp, hp, pollRead, hr]⟩)
    · exact .inl ⟨rfl, rfl, by simp [pollOp, hp, pollRead, hr]⟩
  · cases hb : boundReached s.cfg.maxPolls r.polls
    · exact .inr (.inr (.inr ⟨rfl, rfl, by simp [pollOp, hp, pollSleep, hb]⟩))
    · exact .inr (.inr (.inl ⟨rfl, rfl, by simp [pollOp, hp, pollSleep, hb]⟩))

theorem boundReached_iff (b : Option Nat) (k : Nat) :
    boundReached b k = true ↔ ∃ n, b = some n ∧ n ≤ k := by
  cases b <;> simp [boundReached]

/-- R101: what the accept step can do with a decoded operation. -/
theorem acceptOp_cases (s : State) (op : HostOp) :
    (admitted op s.life s.cfg.strict = true ∧ s.acceptOp op = s.start op) ∨
    (admitted op s.life s.cfg.strict = false ∧
      s.acceptOp op = s.reject .precondition (stage op)) := by
  unfold State.acceptOp
  cases h : admitted op s.life s.cfg.strict
  · exact .inr ⟨rfl, rfl⟩
  · exact .inl ⟨rfl, rfl⟩

/-- `issue_table` of two tables one after the other. -/
theorem issueTable_append (a b : List Entry) :
    issueTable (a ++ b) = issueTable a ++ issueTable b := by
  induction a with
  | nil => rfl
  | cons e t ih => simp [issueTable, ih]

/-- An entry without wait and delay is its split write. -/
theorem entryOps_plain (P : Payload) : entryOps ⟨P, false, 0⟩ = split P := by
  simp [entryOps, waitOps, dlyOps]

end Sys2Proof.Machine
end

