-- ==== Sys2Proof/Laws/PerInstr.lean ====
section
/-! SUPPORT. Per-instruction family `HasFrame`: every instruction but the four micro-operations has
bytes, at least one of them (30_encoding.md R70, R76, R81, R85). -/

namespace Sys2Proof.Laws.HasFrame

open Sys2Proof

/-- Internal instructions have no binary form; every other one has a non-empty one. -/
def Statement (i : Instr) : Prop :=
  ∀ p : Params, (i.channel = .internal ∧ encode p i = none) ∨
    ∃ b F, i.channel ≠ .internal ∧ encode p i = some (b :: F)

theorem stat : Statement .stat := fun _ => .inr ⟨_, _, by simp [Instr.channel], rfl⟩
theorem reset : Statement .reset := fun _ => .inr ⟨_, _, by simp [Instr.channel], rfl⟩
theorem waitBusy : Statement .waitBusy := fun _ => .inr ⟨_, _, by simp [Instr.channel], rfl⟩
theorem powerOn : Statement .powerOn := fun _ => .inr ⟨_, _, by simp [Instr.channel], rfl⟩
theorem init : Statement .init := fun _ => .inr ⟨_, _, by simp [Instr.channel], rfl⟩
theorem write (P : Payload) : Statement (.write P) :=
  fun _ => .inr ⟨_, _, by simp [Instr.channel], rfl⟩
theorem sleep : Statement .sleep := fun _ => .inr ⟨_, _, by simp [Instr.channel], rfl⟩
theorem reserved07 (rest : List Byte) : Statement (.reserved07 rest) :=
  fun _ => .inr ⟨_, _, by simp [Instr.channel], rfl⟩
theorem reservedHigh (first : Byte) (rest : List Byte) : Statement (.reservedHigh first rest) :=
  fun _ => .inr ⟨_, _, by simp [Instr.channel], rfl⟩
theorem resp (k : Kind) (l : Life) (p : PinTag) (st : Stage) : Statement (.resp k l p st) :=
  fun _ => .inr ⟨_, _, by simp [Instr.channel], rfl⟩
theorem pon : Statement .pon := fun _ => .inr ⟨_, _, by simp [Instr.channel], rfl⟩
theorem drf : Statement .drf := fun _ => .inr ⟨_, _, by simp [Instr.channel], rfl⟩
theorem pof : Statement .pof := fun _ => .inr ⟨_, _, by simp [Instr.channel], rfl⟩
theorem dslp : Statement .dslp := fun _ => .inr ⟨_, _, by simp [Instr.channel], rfl⟩
theorem set (p : Pin) (l : Level) : Statement (.set p l) := fun _ => .inl ⟨rfl, rfl⟩
theorem xfer (P : Payload) : Statement (.xfer P) := fun _ => .inl ⟨rfl, rfl⟩
theorem dly (n : Nat) : Statement (.dly n) := fun _ => .inl ⟨rfl, rfl⟩
theorem poll : Statement .poll := fun _ => .inl ⟨rfl, rfl⟩

end Sys2Proof.Laws.HasFrame
end

