-- ==== Sys2Proof/Laws/Step.lean ====
section
/-! SUPPORT. What one step can do: which of the cases of 40_microengine.md R100 applies. -/

namespace Sys2Proof.Machine

theorem step_busy_micro (s : State) (r : RunRec) (m : MicroOp) (h : s.run = .busy r)
    (hm : r.mp[r.upc]? = some m) : step s = exec m.instr s := by
  simp [step, fetch, h, fetchMicro, hm]

theorem step_busy_end (s : State) (r : RunRec) (h : s.run = .busy r)
    (hm : r.upc = r.mp.length) : step s = .next (s.complete r.op) := by
  simp [step, fetch, h, fetchMicro, hm]

theorem step_idle_nil (s : State) (h : s.run = .idle) (hf : s.env.frames = []) :
    step s = .next s := by
  simp [step, fetch, h, hf]

theorem step_idle_instr (s : State) (F : Frame) (rest : List Frame) (i : Instr)
    (h : s.run = .idle) (hf : s.env.frames = F :: rest)
    (hd : decodeFrame s.params.maxPayload F = .instr i) :
    step s = exec i (s.takeFrame F rest) := by
  simp [step, fetch, h, hf, fetchFrame, hd]

theorem step_idle_rejected (s : State) (F : Frame) (rest : List Frame) (e : DecodeError)
    (h : s.run = .idle) (hf : s.env.frames = F :: rest)
    (hd : decodeFrame s.params.maxPayload F = .rejected e) :
    step s = .next ((s.takeFrame F rest).reject (rejection e).1 (rejection e).2) := by
  simp [step, fetch, h, hf, fetchFrame, hd]

/-- Every step that answers a next state is one of these: a micro-operation of the operation in
flight, the complete step, an accepted frame, a malformed frame, or waiting for the host. -/
theorem step_cases (s t : State) (h : step s = .next t) :
    (∃ r m, s.run = .busy r ∧ r.mp[r.upc]? = some m ∧ exec m.instr s = .next t) ∨
    (∃ r, s.run = .busy r ∧ r.upc = r.mp.length ∧ t = s.complete r.op) ∨
    (∃ F rest i, s.run = .idle ∧ s.env.frames = F :: rest ∧
      decodeFrame s.params.maxPayload F = .instr i ∧ exec i (s.takeFrame F rest) = .next t) ∨
    (∃ F rest e, s.run = .idle ∧ s.env.frames = F :: rest ∧
      decodeFrame s.params.maxPayload F = .rejected e ∧
      t = (s.takeFrame F rest).reject (rejection e).1 (rejection e).2) ∨
    (s.run = .idle ∧ s.env.frames = [] ∧ t = s) := by
  cases hr : s.run with
  | busy r =>
    cases hm : r.mp[r.upc]? with
    | some m =>
      rw [step_busy_micro s r m hr hm] at h
      exact .inl ⟨r, m, rfl, hm, h⟩
    | none =>
      by_cases he : r.upc = r.mp.length
      · rw [step_busy_end s r hr he] at h
        injection h with h
        exact .inr (.inl ⟨r, rfl, he, h.symm⟩)
      · simp [step, fetch, hr, fetchMicro, hm, he] at h
  | idle =>
    cases hf : s.env.frames with
    | nil =>
      rw [step_idle_nil s hr hf] at h
      injection h with h
      exact .inr (.inr (.inr (.inr ⟨rfl, rfl, h.symm⟩)))
    | cons F rest =>
      cases hd : decodeFrame s.params.maxPayload F with
      | instr i =>
        rw [step_idle_instr s F rest i hr hf hd] at h
        exact .inr (.inr (.inl ⟨F, rest, i, rfl, rfl, hd, h⟩))
      | rejected e =>
        rw [step_idle_rejected s F rest e hr hf hd] at h
        injection h with h
        exact .inr (.inr (.inr (.inl ⟨F, rest, e, rfl, rfl, hd, h.symm⟩)))

/-- The meaning of a micro-operation of the operation in flight is one of the four shared
operations. -/
theorem exec_micro (m : MicroOp) (s : State) (r : RunRec) (h : s.run = .busy r) :
    exec m.instr s = .next (match m with
      | .set p l => pinSetOp p l r s
      | .xfer P => busWriteOp P r s
      | .dly n => delayOp n r s
      | .poll => pollOp r s) := by
  cases m <;> exact inFlight_busy _ s r h

/-- What a step does while an operation is in flight: one of the four shared operations, or the
complete step (R100). -/
theorem step_busy_cases (s t : State) (r : RunRec) (hr : s.run = .busy r) (h : step s = .next t) :
    (∃ m, r.mp[r.upc]? = some m ∧ t = (match m with
      | .set p l => pinSetOp p l r s
      | .xfer P => busWriteOp P r s
      | .dly n => delayOp n r s
      | .poll => pollOp r s)) ∨
    (r.upc = r.mp.length ∧ t = s.complete r.op) := by
  cases hm : r.mp[r.upc]? with
  | some m =>
    rw [step_busy_micro s r m hr hm, exec_micro m s r hr] at h
    injection h with h
    exact .inl ⟨m, rfl, h.symm⟩
  | none =>
    by_cases he : r.upc = r.mp.length
    · rw [step_busy_end s r hr he] at h
      injection h with h
      exact .inr ⟨he, h.symm⟩
    · simp [step, fetch, hr, fetchMicro, hm, he] at h

/-- What a command frame decodes to is a command. -/
theorem decodeFrame_channel (m : Nat) (F : Frame) (i : Instr) (h : decodeFrame m F = .instr i) :
    i.channel = .command := by
  cases F with
  | nil => simp [decodeFrame] at h
  | cons b rest =>
    simp only [decodeFrame] at h
    split at h
    · split at h
      all_goals first
        | (injection h with h; rw [← h]; rfl)
        | (cases rest <;> simp [decodeH0] at h; rw [← h]; rfl)
        | (cases rest with
           | nil => simp [decodeHW] at h
           | cons c u =>
             simp only [decodeHW] at h
             split at h
             · injection h with h; rw [← h]; rfl
             · simp at h)
    · injection h with h
      rw [← h]
      rfl

/-- What a command does while the sequencer is idle: respond (STAT), reject, or start an admitted
operation (R101). -/
theorem exec_command_cases (i : Instr) (s t : State) (hc : i.channel = .command)
    (hi : s.run = .idle) (h : exec i s = .next t) :
    (i = .stat ∧ t = s.respond) ∨
    (∃ k st, (k = .precondition ∨ k = .illegalCommand) ∧ t = s.reject k st) ∨
    (∃ op, admitted op s.life s.cfg.strict = true ∧ t = s.start op ∧
      ∀ P, op = .write P → i = .write P ∧ P.length ≤ s.params.maxPayload) := by
  have accept (op : HostOp)
      (hw : ∀ P, op = .write P → i = .write P ∧ P.length ≤ s.params.maxPayload)
      (ht : t = s.acceptOp op) :
      (i = .stat ∧ t = s.respond) ∨
      (∃ k st, (k = .precondition ∨ k = .illegalCommand) ∧ t = s.reject k st) ∨
      (∃ op, admitted op s.life s.cfg.strict = true ∧ t = s.start op ∧
        ∀ P, op = .write P → i = .write P ∧ P.length ≤ s.params.maxPayload) := by
    rcases acceptOp_cases s op with ⟨ha, he⟩ | ⟨_, he⟩
    · exact .inr (.inr ⟨op, ha, ht.trans he, hw⟩)
    · exact .inr (.inl ⟨_, _, .inl rfl, ht.trans he⟩)
  have acts (F : Frame) (act : State → State)
      (he : Host.Outcome.next (whenIdle F act s) =
        (Host.Outcome.next t : Host.Outcome State Fault Refusal)) : t = act s := by
    injection he with he
    rw [whenIdle_idle _ _ _ hi] at he
    exact he.symm
  cases i <;> simp [Instr.channel] at hc
  · exact .inl ⟨rfl, acts _ _ h⟩
  · exact accept .reset (by simp) (acts _ _ h)
  · exact accept .waitBusy (by simp) (acts _ _ h)
  · exact accept .powerOn (by simp) (acts _ _ h)
  · exact accept .init (by simp) (acts _ _ h)
  · have ht := acts _ _ h
    split at ht
    · rename_i hl
      exact accept _ (fun P hP => by injection hP with hP; subst hP; exact ⟨rfl, hl⟩) ht
    · exact .inr (.inl ⟨_, _, .inl rfl, ht⟩)
  · exact accept .sleep (by simp) (acts _ _ h)
  · exact .inr (.inl ⟨_, _, .inr rfl, acts _ _ h⟩)
  · exact .inr (.inl ⟨_, _, .inr rfl, acts _ _ h⟩)

/-- What a step does while idle: wait for a frame, or take one and respond, reject or start. -/
theorem step_idle_cases (s t : State) (hi : s.run = .idle) (h : step s = .next t) :
    (s.env.frames = [] ∧ t = s) ∨
    ∃ F rest, s.env.frames = F :: rest ∧
      (t = (s.takeFrame F rest).respond ∨
       (∃ k st, (k = .precondition ∨ k = .illegalCommand) ∧
         t = (s.takeFrame F rest).reject k st) ∨
       ∃ op, admitted op s.life s.cfg.strict = true ∧ t = (s.takeFrame F rest).start op ∧
         ∀ P, op = .write P → P.length ≤ s.params.maxPayload) := by
  cases hf : s.env.frames with
  | nil =>
    rw [step_idle_nil s hi hf] at h
    injection h with h
    exact .inl ⟨rfl, h.symm⟩
  | cons F rest =>
    refine .inr ⟨F, rest, rfl, ?_⟩
    cases hd : decodeFrame s.params.maxPayload F with
    | instr i =>
      rw [step_idle_instr s F rest i hi hf hd] at h
      rcases exec_command_cases i _ t (decodeFrame_channel _ _ _ hd) (by simpa using hi) h with
        ⟨_, h⟩ | h | ⟨op, ha, h, hw⟩
      · exact .inl h
      · exact .inr (.inl h)
      · exact .inr (.inr ⟨op, by simpa using ha, h, fun P hP => by simpa using (hw P hP).2⟩)
    | rejected e =>
      rw [step_idle_rejected s F rest e hi hf hd] at h
      injection h with h
      refine .inr (.inl ⟨_, _, ?_, h.symm⟩)
      cases e <;> simp [rejection]

end Sys2Proof.Machine
end

