-- ==== Sys2Proof/Laws/Run.lean ====
section
/-! SUPPORT. Runs of several steps: one step at the front, two runs one after the other, and that
`runSteps` is the run of the host's interface; and small facts about the terms of claims. -/

namespace Sys2Proof.Machine

@[simp] theorem runSteps_zero (s : State) : runSteps 0 s = .next s := rfl

theorem runSteps_succ (n : Nat) (s t : State) (h : step s = .next t) :
    runSteps (n + 1) s = runSteps n t := by
  simp [runSteps, h]

theorem runSteps_one (s t : State) (h : step s = .next t) : runSteps 1 s = .next t := by
  simp [runSteps, h]

/-- A run of `a + b` steps is a run of `a` steps followed by one of `b`. -/
theorem runSteps_add (a b : Nat) (s t : State) (h : runSteps a s = .next t) :
    runSteps (a + b) s = runSteps b t := by
  induction a generalizing s with
  | zero =>
    rw [runSteps_zero] at h
    injection h with h
    rw [h, Nat.zero_add]
  | succ a ih =>
    rw [Nat.add_right_comm]
    cases hs : step s with
    | next u =>
      rw [runSteps_succ _ s u hs] at h ⊢
      exact ih u h
    | fault r => simp [runSteps, hs] at h
    | refused r => simp [runSteps, hs] at h

/-- `runSteps` is the run of the host's interface. -/
theorem runSteps_eq_core_run (n : Nat) (s : State) :
    runSteps n s = Host.Core.run Sys2Proof.core n s := by
  induction n generalizing s with
  | zero => rfl
  | succ n ih =>
    unfold runSteps
    cases h : step s with
    | next t => exact (ih t).trans (by show _ = Host.Core.run Sys2Proof.core (n + 1) s; simp [Host.Core.run, Sys2Proof.core, h])
    | fault r => simp [Host.Core.run, Sys2Proof.core, h]
    | refused r => simp [Host.Core.run, Sys2Proof.core, h]

section kinds

variable (p : Pin) (l : Level) (P : Payload) (n : Nat) (F : Frame) (b0 b1 : Byte)

@[simp] theorem Event.isPort_pinSet : Event.isPort (.pinSet p l) = true := rfl
@[simp] theorem Event.isPort_busWrite : Event.isPort (.busWrite P) = true := rfl
@[simp] theorem Event.isPort_busyRead : Event.isPort .busyRead = true := rfl
@[simp] theorem Event.isPort_delay : Event.isPort (.delay n) = true := rfl
@[simp] theorem Event.isPort_cmd : Event.isPort (.cmd F) = false := rfl
@[simp] theorem Event.isPort_resp : Event.isPort (.resp b0 b1) = false := rfl
@[simp] theorem Event.isBusWrite_pinSet : Event.isBusWrite (.pinSet p l) = false := rfl
@[simp] theorem Event.isBusWrite_busWrite : Event.isBusWrite (.busWrite P) = true := rfl
@[simp] theorem Event.isBusWrite_busyRead : Event.isBusWrite .busyRead = false := rfl
@[simp] theorem Event.isBusWrite_delay : Event.isBusWrite (.delay n) = false := rfl
@[simp] theorem Event.isBusWrite_cmd : Event.isBusWrite (.cmd F) = false := rfl
@[simp] theorem Event.isBusWrite_resp : Event.isBusWrite (.resp b0 b1) = false := rfl
@[simp] theorem Event.isCmd_pinSet : Event.isCmd (.pinSet p l) = false := rfl
@[simp] theorem Event.isCmd_busWrite : Event.isCmd (.busWrite P) = false := rfl
@[simp] theorem Event.isCmd_busyRead : Event.isCmd .busyRead = false := rfl
@[simp] theorem Event.isCmd_delay : Event.isCmd (.delay n) = false := rfl
@[simp] theorem Event.isCmd_cmd : Event.isCmd (.cmd F) = true := rfl
@[simp] theorem Event.isCmd_resp : Event.isCmd (.resp b0 b1) = false := rfl
@[simp] theorem Event.isResp_pinSet : Event.isResp (.pinSet p l) = false := rfl
@[simp] theorem Event.isResp_busWrite : Event.isResp (.busWrite P) = false := rfl
@[simp] theorem Event.isResp_busyRead : Event.isResp .busyRead = false := rfl
@[simp] theorem Event.isResp_delay : Event.isResp (.delay n) = false := rfl
@[simp] theorem Event.isResp_cmd : Event.isResp (.cmd F) = false := rfl
@[simp] theorem Event.isResp_resp : Event.isResp (.resp b0 b1) = true := rfl

end kinds

theorem answersTaken_append (a b : List MicroOp) :
    answersTaken (a ++ b) = answersTaken a + answersTaken b := by
  induction a with
  | nil => simp [answersTaken]
  | cons m t ih => cases m <;> simp [answersTaken, ih] <;> omega

theorem waitsIn_append (a b : List MicroOp) :
    waitsIn (a ++ b) = waitsIn a + waitsIn b := by
  induction a with
  | nil => simp [waitsIn]
  | cons m t ih => cases m <;> simp [waitsIn, ih] <;> omega

/-- Without a busy wait there is one event for each micro-operation. -/
theorem eventsOf_of_no_wait (c : Cfg) (ops : List MicroOp) (ks : List Nat) (h : waitsIn ops = 0) :
    eventsOf c ops ks = ops.map MicroOp.event := by
  induction ops with
  | nil => rfl
  | cons m t ih => cases m <;> simp_all [eventsOf, waitsIn, MicroOp.event]

theorem pinsAfter_append (ps : Pins) (a b : List MicroOp) :
    pinsAfter ps (a ++ b) = pinsAfter (pinsAfter ps a) b := by
  induction a generalizing ps with
  | nil => rfl
  | cons m t ih => cases m <;> simp [pinsAfter, ih]

/-- The last SET of a program and one more micro-operation. -/
theorem lastSet_concat (p : Pin) (l : List MicroOp) (m : MicroOp) :
    lastSet p (l ++ [m]) = match m with
      | .set q x => if q = p then some x else lastSet p l
      | .xfer _ => lastSet p l
      | .dly _ => lastSet p l
      | .poll => lastSet p l := by
  induction l with
  | nil => cases m <;> simp [lastSet]
  | cons a t ih =>
    cases a <;> simp only [List.cons_append, lastSet, ih] <;> cases m <;> simp
    rename_i q _ q' _
    by_cases h : q' = p <;> by_cases h' : q = p <;> simp [h, h']

/-! The response frames of completed and aborted operations, as bytes (R76). -/

theorem respByte0_values :
    respByte0 .ok .reset = 0x01 ∧ respByte0 .ok .poweredOn = 0x02 ∧
    respByte0 .ok .initialized = 0x03 ∧ respByte0 .ok .sleeping = 0x05 ∧
    respByte0 .busFault .failed = 0x16 ∧ respByte0 .pinFault .failed = 0x26 ∧
    respByte0 .timeout .failed = 0x36 ∧ respByte0 .precondition .failed = 0x46 := by decide

theorem respByte1_noPin_values :
    respByte1 .noPin .noStage = 0x00 ∧ respByte1 .noPin .reset = 0x01 ∧
    respByte1 .noPin .waitBusy = 0x02 ∧ respByte1 .noPin .powerOn = 0x03 ∧
    respByte1 .noPin .init = 0x04 ∧ respByte1 .noPin .write = 0x05 ∧
    respByte1 .noPin .sleep = 0x06 := by decide

end Sys2Proof.Machine
end

