-- ==== Sys2Proof/Laws/Views.lean ====
section
/-! SUPPORT. The payload buffer of 10_state.md R27: its size, and what is in it while a payload is
loaded. -/

namespace Sys2Proof.Machine

theorem Payload.length_bytes (P : Payload) : P.bytes.length = P.length := by
  simp [Payload.bytes, Payload.length]

theorem State.plen_of_buffered (s : State) (P : Payload) (h : s.buffered = some P) :
    s.plen = P.length := by
  simp [State.plen, h]

/-- The first `PLEN` bytes of `PBUF` are the payload it was loaded with (R27). -/
theorem State.take_pbuf_of_buffered (s : State) (P : Payload) (h : s.buffered = some P)
    (hl : P.length ≤ s.params.maxPayload) : s.pbuf.take s.plen = P.bytes := by
  have hb := Payload.length_bytes P
  rw [s.plen_of_buffered P h]
  apply List.ext_getElem
  · simp [State.pbuf, hb, hl]
  · intro i h1 h2
    simp [State.pbuf, State.loaded, h, List.getD, List.getElem?_eq_getElem h2]

end Sys2Proof.Machine
end

