-- ==== Sys2Proof/Tests/Slice0.lean ====
section
/-! SUPPORT. Tests: ill-formed terms refused, words written out from the spec's encodings, one step
of each instruction with results taken from the vectors of 95_test_vectors.md (V<n>), and a witness
for the hypotheses of each statement. -/

namespace Sys2Proof.Tests

open Sys2Proof.Machine

/-! ## Fixture (95_test_vectors.md) -/

/-- The fixture parameters of 95_test_vectors.md. -/
def params : Params where
  tResetMs := 3
  tPonSettleMs := 50
  tSleepMs := 2000
  dslpPayload := ⟨0x07, [0xA5]⟩
  ponCmd := 0x04
  drfCmd := 0x12
  pofCmd := 0x02
  initTable := [⟨0xA0, []⟩, ⟨0xA1, [0x11]⟩, ⟨0xA2, [0x21, 0x22]⟩]
  maxPayload := 16

/-- The fixture configuration, with a chosen `MAX_POLLS` and `STRICT`. -/
def cfg (maxPolls : Option Nat) (strict : Bool) : Cfg := ⟨5, .high, maxPolls, strict⟩

/-- Idle, with a lifecycle state, the host's frames, and the environment's answers and levels. -/
def idle (l : Life) (F : List Frame) (as : List Answer) (ls : List Level) : State :=
  { State.constructed (cfg (some 3) true) params with life := l, env := ⟨F, as, ls, 0⟩ }

/-- Inside the operation `op` at micro-operation `n`, in phase `ph` of a wait with count `k`. -/
def inside (op : HostOp) (n : Nat) (ph : PollPhase) (k : Nat) (as : List Answer)
    (ls : List Level) : State :=
  { State.constructed (cfg (some 3) true) params with
    life := lifeInFlight op .initialized
    run := .busy ⟨op, program params op, n, ph, k⟩
    env := ⟨[], as, ls, 0⟩ }

/-- The record in flight of `inside`. -/
def rec (op : HostOp) (n : Nat) (ph : PollPhase) (k : Nat) : RunRec :=
  ⟨op, program params op, n, ph, k⟩

/-- The next state, if there is one. -/
def nextOf (o : Host.Outcome State Fault Refusal) : Option State :=
  match o with
  | .next t => some t
  | .fault _ => none
  | .refused _ => none

/-- What a test looks at: the events a step adds, `LIFE` and `RESULT`. -/
def seen (s : State) (o : Host.Outcome State Fault Refusal) : Option (List Event × Life × Result) :=
  (nextOf o).map fun t => (t.trace.drop s.trace.length, t.life, t.result)

/-- `UPC` after the step, if an operation is still in flight. -/
def upcAfter (o : Host.Outcome State Fault Refusal) : Option Nat :=
  match nextOf o with
  | some t => match t.run with
    | .busy r => some r.upc
    | .idle => none
  | none => none

/-- A WRITE payload of `n + 1` bytes. -/
def payloadOf (n : Nat) : Payload := ⟨0x11, List.replicate n 0x11⟩

/-! ## Well-formedness: each check refuses an ill-formed term -/

theorem test_wf_fixture : params.WellFormed (cfg (some 3) true) := by decide
theorem test_wf_poll_rate : ¬ params.WellFormed { cfg none true with pollRateMs := 0 } := by decide
theorem test_wf_reset_delay : ¬ { params with tResetMs := 0 }.WellFormed (cfg none true) := by decide
theorem test_wf_settle_delay :
    ¬ { params with tPonSettleMs := 0 }.WellFormed (cfg none true) := by decide
theorem test_wf_sleep_delay : ¬ { params with tSleepMs := 0 }.WellFormed (cfg none true) := by decide
theorem test_wf_init_entry :
    ¬ { params with initTable := [payloadOf 16] }.WellFormed (cfg none true) := by decide
theorem test_wf_max_polls : ¬ params.WellFormed (cfg (some 0) true) := by decide
theorem test_wf_max_payload :
    ¬ { params with maxPayload := 9 }.WellFormed (cfg none true) := by decide
theorem test_wf_dslp :
    ¬ { params with dslpPayload := payloadOf 16 }.WellFormed (cfg none true) := by decide
theorem test_wf_write_too_long : (Instr.write (payloadOf 16)).wf params = false := by decide
theorem test_wf_xfer_too_long : (Instr.xfer (payloadOf 16)).wf params = false := by decide
theorem test_wf_dly_zero : (Instr.dly 0).wf params = false := by decide
theorem test_wf_micro_xfer_too_long : (MicroOp.xfer (payloadOf 16)).wf params = false := by decide
theorem test_wf_micro_dly_zero : (MicroOp.dly 0).wf params = false := by decide
theorem test_wf_reserved_high : (Instr.reservedHigh 0x07 []).wf params = false := by decide
theorem test_wf_resp_writing : (Instr.resp .ok .writing .noPin .write).wf params = false := by decide
theorem test_wf_resp_pin_without_fault :
    (Instr.resp .busFault .failed .cs1 .write).wf params = false := by decide
theorem test_wf_resp_fault_without_pin :
    (Instr.resp .pinFault .failed .noPin .write).wf params = false := by decide
theorem test_construct_refuses :
    nextOf (construct (cfg (some 0) true) params) = none := by decide

/-! ## Decoding: words written out from R71, R72, R74, R76 to R80, R82 -/

theorem test_decode_stat : decodeFrame 16 [0b00000_000] = .instr .stat := by decide
theorem test_decode_reset : decodeFrame 16 [0b00000_001] = .instr .reset := by decide
theorem test_decode_wait_busy : decodeFrame 16 [0b00000_010] = .instr .waitBusy := by decide
theorem test_decode_power_on : decodeFrame 16 [0b00000_011] = .instr .powerOn := by decide
theorem test_decode_init : decodeFrame 16 [0b00000_100] = .instr .init := by decide
theorem test_decode_write :
    decodeFrame 16 [0b00000_101, 0x10, 0xAA, 0xBB] = .instr (.write ⟨0x10, [0xAA, 0xBB]⟩) := by decide
theorem test_decode_sleep : decodeFrame 16 [0b00000_110] = .instr .sleep := by decide
theorem test_decode_reserved07 :
    decodeFrame 16 [0b00000_111, 0x02] = .instr (.reserved07 [0x02]) := by decide
theorem test_decode_reserved_high :
    decodeFrame 16 [0b00001_000] = .instr (.reservedHigh 0x08 []) := by decide
/-- `kind = PinFault` (2), `life = Failed` (6); `pin = RST` (3), `stage = reset` (1): `26 31`. -/
theorem test_decode_resp :
    decodeResp [0b0010_0_110, 0b00_11_0_001] = some (.resp .pinFault .failed .rst .reset) := by decide
/-- Kind code 6 is never produced. -/
theorem test_decode_resp_reserved : decodeResp [0b0110_0_110, 0b00_00_0_001] = none := by decide
theorem test_decode_pon : decodePanel params [0x04] = some .pon := by decide
theorem test_decode_drf : decodePanel params [0x12, 0x00] = some .drf := by decide
theorem test_decode_pof : decodePanel params [0x02, 0x00] = some .pof := by decide
theorem test_decode_dslp : decodePanel params [0x07, 0xA5] = some .dslp := by decide
/-- The table's words: `0x05` is WRITE, `0x07A5` is DSLP, `0x2631` is a response. -/
theorem test_decode_table :
    decodeTableWord 16 0x2631 = some (.resp .pinFault .failed .rst .reset) ∧
    decodeTableWord 8 0x06 = some .sleep ∧ decodeTableWord 8 0x08 = some (.reservedHigh 0x08 []) := by
  decide

/-! ## One step of each instruction -/

/-- V09d: STAT reports the result of the rejected frame before it. -/
theorem test_stat :
    let s := { idle .uninitialized [[0x00]] [] [] with result := ⟨.illegalCommand, .noPin, .noStage⟩ }
    seen s (step s) = some ([.cmd [0x00], .resp 0x50 0x00], .uninitialized,
      ⟨.illegalCommand, .noPin, .noStage⟩) := by decide

/-- V12: RESET is admitted from `Failed`; the micro-program has seven entries (R108). -/
theorem test_reset :
    (nextOf (step (idle .failed [[0x01]] [] []))).map (fun t => (t.life, t.run)) =
      some (.failed, .busy ⟨.reset, [.set .rst .high, .dly 3, .set .rst .low, .dly 3,
        .set .rst .high, .dly 3, .set .rst .low], 0, .read, 0⟩) := by decide

/-- Admission matrix of 95_test_vectors.md: WAIT_BUSY from `Failed` is rejected. -/
theorem test_wait_busy_rejected :
    let s := idle .failed [[0x02]] [] []
    seen s (step s) = some ([.cmd [0x02], .resp 0x46 0x02], .failed,
      ⟨.precondition, .noPin, .waitBusy⟩) := by decide

theorem test_wait_busy :
    (nextOf (step (idle .sleeping [[0x02]] [] []))).map State.run =
      some (.busy ⟨.waitBusy, [.poll], 0, .read, 0⟩) := by decide

/-- V24. -/
theorem test_power_on_rejected :
    let s := idle .failed [[0x03]] [] []
    seen s (step s) = some ([.cmd [0x03], .resp 0x46 0x03], .failed,
      ⟨.precondition, .noPin, .powerOn⟩) := by decide

/-- V23: the first event of the 27 is `PinSet(CS1, L)`; after `SW([04])` come the wait and the
settling delay, and `[12, 00]` is what the second split write sends. -/
theorem test_power_on :
    (nextOf (exec .powerOn (idle .uninitialized [] [] []))).map (fun t =>
      match t.run with
      | .busy r => (r.mp.length, r.mp[1]?, (r.mp.drop 8).take 2, r.mp[11]?, r.mp.getLast?)
      | .idle => (0, none, [], none, none)) =
    some (27, some (.xfer ⟨0x04, []⟩), [.poll, .dly 50], some (.xfer ⟨0x12, [0x00]⟩),
      some (.set .cs2 .high)) := by decide

/-- V30: seven reset events, the wait, and the first entry of the table. -/
theorem test_init :
    (nextOf (exec .init (idle .sleeping [] [] []))).map (fun t =>
      match t.run with
      | .busy r => (r.mp.length, r.mp[6]?, r.mp[7]?, r.mp[9]?, r.mp[29]?)
      | .idle => (0, none, none, none, none)) =
    some (32, some (.set .rst .low), some .poll, some (.xfer ⟨0xA0, []⟩),
      some (.xfer ⟨0xA2, [0x21, 0x22]⟩)) := by decide

/-- V09. -/
theorem test_write_rejected :
    let s := idle .uninitialized [[0x05, 0x10]] [] []
    seen s (step s) = some ([.cmd [0x05, 0x10], .resp 0x40 0x05], .uninitialized,
      ⟨.precondition, .noPin, .write⟩) := by decide

/-- V38b: a payload of exactly `MAX_PAYLOAD` bytes is accepted; `LIFE` is `Writing` meanwhile. -/
theorem test_write_longest :
    (nextOf (exec (.write (payloadOf 15)) (idle .initialized [] [] []))).map (fun t =>
      (t.life, t.run)) = some (.writing, .busy ⟨.write (payloadOf 15),
        split (payloadOf 15), 0, .read, 0⟩) := by decide

/-- V42. -/
theorem test_sleep_rejected :
    let s := idle .sleeping [[0x06]] [] []
    seen s (step s) = some ([.cmd [0x06], .resp 0x45 0x06], .sleeping,
      ⟨.precondition, .noPin, .sleep⟩) := by decide

/-- V40: the payload is `[07, A5]` and the last of the nine entries is the delay of 2000 ms. -/
theorem test_sleep :
    (nextOf (exec .sleep (idle .initialized [] [] []))).map (fun t =>
      match t.run with
      | .busy r => (r.mp.length, r.mp[1]?, r.mp.getLast?)
      | .idle => (0, none, none)) =
    some (9, some (.xfer ⟨0x07, [0xA5]⟩), some (.dly 2000)) := by decide

/-- V02. -/
theorem test_reserved07 :
    let s := idle .uninitialized [[0x07]] [] []
    seen s (step s) = some ([.cmd [0x07], .resp 0x50 0x00], .uninitialized,
      ⟨.illegalCommand, .noPin, .noStage⟩) := by decide

/-- V04. -/
theorem test_reserved_high :
    let s := idle .uninitialized [[0xFF]] [] []
    seen s (step s) = some ([.cmd [0xFF], .resp 0x50 0x00], .uninitialized,
      ⟨.illegalCommand, .noPin, .noStage⟩) := by decide

/-- V05, V06: malformed frames are `Illegal`. -/
theorem test_illegal_frames :
    let s := idle .uninitialized [[0x01, 0x00]] [] []
    let u := idle .uninitialized [[]] [] []
    seen s (step s) = some ([.cmd [0x01, 0x00], .resp 0x50 0x00], .uninitialized,
      ⟨.illegalCommand, .noPin, .noStage⟩) ∧
    seen u (step u) = some ([.cmd [], .resp 0x50 0x00], .uninitialized,
      ⟨.illegalCommand, .noPin, .noStage⟩) := by decide

/-- V07, V38: a WRITE without payload, or with 17 bytes, is `BadPayload`. -/
theorem test_bad_payloads :
    let s := idle .uninitialized [[0x05]] [] []
    let u := idle .initialized [0x05 :: List.replicate 17 0x11] [] []
    seen s (step s) = some ([.cmd [0x05], .resp 0x40 0x05], .uninitialized,
      ⟨.precondition, .noPin, .write⟩) ∧
    seen u (step u) = some ([.cmd (0x05 :: List.replicate 17 0x11), .resp 0x43 0x05], .initialized,
      ⟨.precondition, .noPin, .write⟩) := by decide

/-- R76 to R80: `(PinFault, CS2, sleep)` with `Failed` is `26 26` (95_test_vectors.md, 2.9). -/
theorem test_resp :
    let s := idle .failed [] [] []
    (nextOf (exec (.resp .pinFault .failed .cs2 .sleep) s)).map State.trace =
      some [.resp 0x26 0x26] := by decide

/-- The four fixed payloads of V20 and V40. -/
theorem test_pon :
    let s := inside .powerOn 1 .read 0 [.ok] []
    (nextOf (exec .pon s)).map State.trace = some [.busWrite ⟨0x04, []⟩] := by decide
theorem test_drf :
    let s := inside .powerOn 11 .read 0 [.ok] []
    (nextOf (exec .drf s)).map State.trace = some [.busWrite ⟨0x12, [0x00]⟩] := by decide
theorem test_pof :
    let s := inside .powerOn 20 .read 0 [.ok] []
    (nextOf (exec .pof s)).map State.trace = some [.busWrite ⟨0x02, [0x00]⟩] := by decide
theorem test_dslp :
    let s := inside .sleep 1 .read 0 [.ok] []
    (nextOf (exec .dslp s)).map State.trace = some [.busWrite ⟨0x07, [0xA5]⟩] := by decide

/-- V36c: the fault at the first event of a split write. -/
theorem test_set_fault :
    let s := inside (.write ⟨0x10, []⟩) 0 .read 0 [.fault] []
    (nextOf (step s)).map (fun t => (t.trace, t.pins, t.life, t.run)) =
      some ([.pinSet .cs1 .low, .resp 0x26 0x15], ⟨.unknown, .unknown, .unknown⟩, .failed, .idle) := by
  decide

theorem test_set :
    let s := inside (.write ⟨0x10, []⟩) 0 .read 0 [.ok] []
    (nextOf (step s)).map (fun t => (t.trace, t.pins)) =
      some ([.pinSet .cs1 .low], ⟨.low, .unknown, .unknown⟩) ∧ upcAfter (step s) = some 1 := by decide

/-- V36b: the fault at the first bus write leaves the primary select low. -/
theorem test_xfer_fault :
    let s := { inside (.write ⟨0x10, []⟩) 1 .read 0 [.fault] [] with pins := ⟨.low, .high, .low⟩ }
    (nextOf (step s)).map (fun t => (t.trace, t.pins, t.result)) =
      some ([.busWrite ⟨0x10, []⟩, .resp 0x16 0x05], ⟨.low, .high, .low⟩,
        ⟨.busFault, .noPin, .write⟩) := by decide

theorem test_xfer :
    let s := inside (.write ⟨0x10, []⟩) 1 .read 0 [.ok] []
    (nextOf (step s)).map State.trace = some [.busWrite ⟨0x10, []⟩] ∧
      upcAfter (step s) = some 2 := by decide

/-- V40: the delay of SLEEP. -/
theorem test_dly :
    let s := inside .sleep 8 .read 0 [] []
    (nextOf (step s)).map State.trace = some [.delay 2000] ∧ upcAfter (step s) = some 9 := by decide

/-- V18: a first `notready` is below the bound of 3. -/
theorem test_poll_not_ready :
    let s := inside .waitBusy 0 .read 0 [] [.low]
    (nextOf (step s)).map (fun t => (t.trace, t.run)) =
      some ([.busyRead], .busy ⟨.waitBusy, [.poll], 0, .sleep, 1⟩) := by decide

/-- V16: after the third `notready` and its sleep the wait times out. -/
theorem test_poll_times_out :
    let s := inside .waitBusy 0 .sleep 3 [] []
    seen s (step s) = some ([.delay 5, .resp 0x36 0x02], .failed, ⟨.timeout, .noPin, .waitBusy⟩) := by
  decide

/-- R27: while POWER_ON sends DRF, `PLEN` is 2, `PBUF` has 16 bytes and begins with `[12, 00]`. -/
theorem test_buffer :
    let s := inside .powerOn 11 .read 0 [] []
    s.plen = 2 ∧ s.pbuf.length = 16 ∧ s.pbuf.take 2 = [0x12, 0x00] := by decide

/-- V35: the complete step of a WRITE. -/
theorem test_complete :
    let s := inside (.write ⟨0x10, []⟩) 8 .read 0 [] []
    seen s (step s) = some ([.resp 0x03 0x05], .initialized, ⟨.ok, .noPin, .write⟩) := by decide

/-! ## Witnesses: for every statement with hypotheses, a case that meets them all -/

theorem witness_CommandFramesRoundTrip :
    (Instr.write (payloadOf 15)).channel = .command ∧
    (Instr.write (payloadOf 15)).wf params = true ∧
    encode params (.write (payloadOf 15)) = some (0x05 :: List.replicate 16 0x11) ∧
    (Instr.reservedHigh 0x08 []).wf params = true ∧
    encode params (.reservedHigh 0x08 []) = some [0x08] := by decide

theorem witness_DecodedFramesEncodeBack :
    decodeFrame params.maxPayload [0x05, 0x10] = .instr (.write ⟨0x10, []⟩) := by decide

theorem witness_MalformedFramesAreNamed :
    decodeFrame 16 [] = .rejected .emptyFrame ∧
    decodeFrame 16 [0x06, 0x00] = .rejected .extraBytes ∧
    decodeFrame 16 [0x05] = .rejected .emptyPayload ∧
    decodeFrame 16 (0x05 :: List.replicate 17 0x11) = .rejected .payloadTooLong := by decide

theorem witness_ResponsesAndPayloadsRoundTrip :
    encode params (.resp .ok .failed .noPin .noStage) = some [0x06, 0x00] ∧
    decodeResp [0x56, 0x36] = some (.resp .illegalCommand .failed .rst .sleep) ∧
    decodePanel params [0x04] = some .pon ∧
    [params.dslpPayload, drfPayload params, pofPayload params, ponPayload params].Nodup ∧
    Instr.pof.channel = .panel ∧ encode params .pof = some [0x02, 0x00] := by decide

theorem witness_StepRunsTheDecodedInstruction :
    (let s := idle .failed [[0x06], [0x00]] [] []
     s.run = .idle ∧ s.env.frames = [0x06] :: [[0x00]] ∧
       decodeFrame s.params.maxPayload [0x06] = .instr .sleep) ∧
    (let r := rec .reset 6 .read 0
     (inside .reset 6 .read 0 [] []).run = .busy r ∧ r.mp[r.upc]? = some (.set .rst .low)) := by
  decide

theorem witness_FramesAreHeldWhileBusy :
    (idle .reset [] [] []).run = .idle ∧ (idle .reset [] [] []).env.frames = [] ∧
    (inside .sleep 8 .read 0 [] []).run = .busy (rec .sleep 8 .read 0) ∧
    (nextOf (step (inside .sleep 8 .read 0 [] []))).isSome = true ∧
    Instr.stat.channel = .command ∧ encode params .stat = some [0x00] := by decide

theorem witness_FramesWithoutAnOperationAreRejected :
    (idle .reset [] [] []).run = .idle ∧
    (idle .reset [[0x01, 0x00]] [] []).env.frames = [[0x01, 0x00]] ∧
    decodeFrame params.maxPayload [0x01, 0x00] = .rejected .extraBytes ∧
    decodeFrame params.maxPayload [] = .rejected .emptyFrame ∧
    decodeFrame params.maxPayload [0x05] = .rejected .emptyPayload ∧
    decodeFrame params.maxPayload (0x05 :: List.replicate 17 0x11) = .rejected .payloadTooLong := by
  decide

/-- StatAnswers, ResetStarts, InitStarts: an idle state. -/
theorem witness_StatAnswers : (idle .failed [] [] []).run = .idle := by decide
theorem witness_ResetStarts : (idle .failed [] [] []).run = .idle := by decide
theorem witness_InitStarts : (idle .failed [] [] []).run = .idle := by decide

theorem witness_WaitBusyStarts :
    let s := idle .sleeping [] [] []
    s.run = .idle ∧ s.cfg.strict = true ∧ s.life ≠ .failed := by decide

theorem witness_PowerOnStarts :
    let s := idle .sleeping [] [] []
    s.run = .idle ∧ s.cfg.strict = true ∧ s.life ≠ .failed ∧ 1 ≤ s.params.tPonSettleMs := by decide

theorem witness_WriteStarts :
    let s := idle .initialized [] [] []
    s.run = .idle ∧ (payloadOf 15).length ≤ s.params.maxPayload ∧ s.cfg.strict = true ∧
      s.life = .initialized := by decide

theorem witness_SleepStarts :
    let s := idle .initialized [] [] []
    s.run = .idle ∧ s.cfg.strict = true ∧ s.life = .initialized ∧ 1 ≤ s.params.tSleepMs := by decide

theorem witness_CommandsNotAdmittedAreTurnedAway :
    let s := idle .failed [] [] []
    s.run = .idle ∧ s.cfg.strict = true ∧ s.life = .failed ∧ s.life ≠ .initialized ∧
      s.params.maxPayload < (payloadOf 16).length := by decide

theorem witness_AdmissionAndTransitions : Life.failed ≠ .writing := by decide

/-- SetDrivesThePin and XferSendsThePayload: both answers. -/
theorem witness_SetDrivesThePin :
    (inside .reset 0 .read 0 [.ok] []).run = .busy (rec .reset 0 .read 0) ∧
    (inside .reset 0 .read 0 [.ok] []).answer = .ok ∧
    (inside .reset 0 .read 0 [.fault] []).answer = .fault := by decide

theorem witness_XferSendsThePayload :
    (inside .sleep 1 .read 0 [.ok] []).run = .busy (rec .sleep 1 .read 0) ∧
    (inside .sleep 1 .read 0 [.ok] []).answer = .ok ∧
    (inside .sleep 1 .read 0 [.fault] []).answer = .fault := by decide

theorem witness_DlyAsksForTheDelay :
    (inside .sleep 8 .read 0 [] []).run = .busy (rec .sleep 8 .read 0) ∧
      params.WellFormed (cfg none true) ∧ .dly 50 ∈ program params .powerOn := by decide

theorem witness_PollReadsTheBusyPin :
    let s := inside .waitBusy 0 .read 0 [] [.high]
    let u := inside .waitBusy 0 .read 0 [] [.low]
    s.run = .busy (rec .waitBusy 0 .read 0) ∧ (rec .waitBusy 0 .read 0).pollPh = .read ∧
      s.level = s.cfg.readyLevel ∧ u.level ≠ u.cfg.readyLevel := by decide

/-- At the bound (3) and one below it. -/
theorem witness_PollSleepsAndTimesOut :
    (inside .waitBusy 0 .sleep 3 [] []).run = .busy (rec .waitBusy 0 .sleep 3) ∧
    (rec .waitBusy 0 .sleep 3).pollPh = .sleep ∧
    (inside .waitBusy 0 .sleep 3 [] []).cfg.maxPolls = some 3 ∧
    3 ≤ (rec .waitBusy 0 .sleep 3).polls ∧ (rec .waitBusy 0 .sleep 2).polls < 3 := by decide

/-- Both answers. -/
theorem witness_PanelPayloadsGoOut :
    (inside .powerOn 1 .read 0 [.ok] []).run = .busy (rec .powerOn 1 .read 0) ∧
    (inside .powerOn 1 .read 0 [.ok] []).answer = .ok ∧
    (inside .powerOn 1 .read 0 [.fault] []).answer = .fault := by decide

theorem witness_MicroOperationsNeedAnOperationInFlight :
    (idle .reset [] [] []).run = .idle ∧ Instr.poll.channel = .internal ∧
      Instr.dslp.channel = .panel := by decide

/-- A complete step, and an operation that ends with `Ok`. -/
theorem witness_OnlyCompletionEndsWithOk :
    let s := inside .waitBusy 1 .read 0 [] []
    s.run = .busy (rec .waitBusy 1 .read 0) ∧
      (rec .waitBusy 1 .read 0).upc = (rec .waitBusy 1 .read 0).mp.length ∧
      (nextOf (step s)).map (fun t => (t.run, t.result.kind)) = some (.idle, .ok) := by decide

theorem witness_ProgramsOfTheOperations :
    params.WellFormed (cfg none true) ∧ (idle .reset [] [] []).run = .idle ∧
      (nextOf (exec .stat (idle .reset [] [] []))).isSome = true := by decide

theorem witness_ProgramsAreWellFormed :
    params.WellFormed (cfg none true) ∧ (payloadOf 15).length ≤ params.maxPayload ∧
      .xfer (payloadOf 15) ∈ program params (.write (payloadOf 15)) := by decide

theorem witness_ResetPulseTrain :
    let s := inside .init 0 .read 0 [.ok, .ok, .ok, .ok] []
    s.params.tResetMs = 3 ∧ s.run = .busy (rec .init 0 .read 0) ∧ (rec .init 0 .read 0).upc = 0 ∧
      (rec .init 0 .read 0).mp.take 7 = resetSeq s.params ∧
      s.env.answers = [Answer.ok, .ok, .ok, .ok] ++ [] := by decide

/-- The last of the four pin faults, as a run and as a step. -/
theorem witness_ResetPulseTrainFaults :
    let s := inside .reset 0 .read 0 [.ok, .ok, .ok, .fault] []
    s.run = .busy (rec .reset 0 .read 0) ∧ (rec .reset 0 .read 0).upc = 0 ∧
      (rec .reset 0 .read 0).mp.take 7 = resetSeq s.params ∧ 3 < 4 ∧
      s.env.answers = List.replicate 3 Answer.ok ++ Answer.fault :: [] ∧
      (rec .reset 6 .read 0).upc < 7 ∧
      (nextOf (step (inside .reset 6 .read 0 [.fault] []))).map State.run = some .idle := by decide

theorem witness_SplitWriteSendsTwice :
    let s := inside .powerOn 10 .read 0 (List.replicate 8 .ok) []
    s.run = .busy (rec .powerOn 10 .read 0) ∧
      ((rec .powerOn 10 .read 0).mp.drop (rec .powerOn 10 .read 0).upc).take 8 =
        split ⟨0x12, [0x00]⟩ ∧
      s.env.answers = List.replicate 8 Answer.ok ++ [] := by decide

/-- The last of the eight steps. -/
theorem witness_SplitWriteFaultTable :
    let s := inside .powerOn 10 .read 0 (List.replicate 7 .ok ++ [.fault]) []
    s.run = .busy (rec .powerOn 10 .read 0) ∧
      ((rec .powerOn 10 .read 0).mp.drop (rec .powerOn 10 .read 0).upc).take 8 =
        split ⟨0x12, [0x00]⟩ ∧ 7 < 8 ∧
      s.env.answers = List.replicate 7 Answer.ok ++ Answer.fault :: [] := by decide

/-- From the first wait of POWER_ON: two waits, seeing two and no not-ready answers under the bound of
3. -/
theorem witness_FaultFreeRunPerformsTheProgram :
    let r := rec .powerOn 8 .read 0
    let s := inside .powerOn 8 .read 0 (List.replicate 16 .ok) [.low, .low, .high, .high]
    s.run = .busy r ∧ r.upc ≤ r.mp.length ∧ r.pollPh = .read ∧ r.polls = 0 ∧
      [2, 0].length = waitsIn (r.mp.drop r.upc) ∧ (∀ k ∈ [2, 0], belowBound s.cfg k) ∧
      s.env.answers = List.replicate (answersTaken (r.mp.drop r.upc)) Answer.ok ++ [] ∧
      s.env.levels = ([2, 0].map (waitLevels s.cfg)).flatten ++ [] := by
  decide

theorem witness_FirstFaultCutsTheProgram :
    let r := rec .init 7 .read 0
    let s := inside .init 7 .read 0 [.ok, .fault] [.low, .low, .high]
    s.run = .busy r ∧ r.upc ≤ 9 ∧ r.mp[9]? = some (.xfer ⟨0xA0, []⟩) ∧
      answersTaken [.xfer ⟨0xA0, []⟩] = 1 ∧ r.pollPh = .read ∧ r.polls = 0 ∧
      [2].length = waitsIn ((r.mp.drop r.upc).take (9 - r.upc)) ∧
      (∀ k ∈ [2], belowBound s.cfg k) ∧
      s.env.answers = List.replicate (answersTaken ((r.mp.drop r.upc).take (9 - r.upc))) Answer.ok ++
        Answer.fault :: [] ∧
      s.env.levels = ([2].map (waitLevels s.cfg)).flatten ++ [] := by
  decide

theorem witness_ResetRunsToCompletion :
    let s := idle .sleeping [[0x01]] [.ok, .ok, .ok, .ok] []
    s.run = .idle ∧ s.env.frames = [0x01] :: [] ∧
      s.env.answers = [Answer.ok, .ok, .ok, .ok] ++ [] := by decide

/-- Two not-ready reads under the bound of 3 (V18). -/
theorem witness_WaitBusyEndsWhenReady :
    let s := idle .sleeping [[0x02]] [] [.low, .low, .high]
    s.run = .idle ∧ s.cfg.strict = true ∧ s.life ≠ .failed ∧ s.env.frames = [0x02] :: [] ∧
      s.env.levels =
        List.replicate 2 (otherLevel s.cfg.readyLevel) ++ s.cfg.readyLevel :: [] ∧
      s.cfg.maxPolls = some 3 ∧ 2 < 3 := by decide

theorem witness_WaitBusyTimesOut :
    let s := idle .sleeping [[0x02]] [] [.low, .low, .low]
    s.run = .idle ∧ s.life ≠ .failed ∧ s.env.frames = [0x02] :: [] ∧
      s.cfg.maxPolls = some 3 ∧ 1 ≤ 3 ∧
      s.env.levels = List.replicate 3 (otherLevel s.cfg.readyLevel) ++ [] := by decide

/-- One case for each clause: a wait that ends, one that times out, two without a bound. -/
theorem witness_BusyWaitNeverReturnsWhileNotReady :
    let r := rec .waitBusy 0 .read 0
    let s := inside .waitBusy 0 .read 0 [] [.high]
    let u := inside .waitBusy 0 .sleep 3 [] []
    let v := { inside .waitBusy 0 .read 0 [] [.low, .low] with cfg := cfg none true }
    let w := { inside .waitBusy 0 .read 0 [] [.low, .high] with cfg := cfg none true }
    (s.run = .busy r ∧ r.mp[r.upc]? = some .poll ∧ upcAfter (step s) = some 1 ∧ 1 ≠ r.upc) ∧
    (u.run = .busy (rec .waitBusy 0 .sleep 3) ∧ (nextOf (step u)).map State.run = some .idle) ∧
    (v.run = .busy r ∧ r.pollPh = .read ∧ v.cfg.maxPolls = none ∧
      v.env.levels = List.replicate 2 (otherLevel v.cfg.readyLevel) ++ []) ∧
    (w.run = .busy r ∧ w.cfg.maxPolls = none ∧
      w.env.levels = List.replicate 1 (otherLevel w.cfg.readyLevel) ++ w.cfg.readyLevel :: []) := by
  decide

/-- V20: one not-ready answer in the first wait, none in the second. -/
theorem witness_PowerOnRunsToCompletion :
    let s := idle .reset [[0x03]] (List.replicate 24 .ok) [.low, .high, .high]
    s.run = .idle ∧ s.life ≠ .failed ∧ s.env.frames = [0x03] :: [] ∧ 1 ≤ s.params.tPonSettleMs ∧
      s.env.answers = List.replicate 24 Answer.ok ++ [] ∧
      s.env.levels = waitLevels s.cfg 1 ++ waitLevels s.cfg 0 ++ [] ∧
      belowBound s.cfg 1 ∧ belowBound s.cfg 0 := by decide

/-- Two not-ready answers under the bound of 3, and V30: three of them without a bound. -/
theorem witness_InitRunsToCompletion :
    let s := idle .poweredOn [[0x04]] (List.replicate 28 .ok) [.low, .low, .high]
    let u := { idle .poweredOn [[0x04]] (List.replicate 28 .ok) [.low, .low, .low, .high] with
      cfg := cfg none true }
    s.run = .idle ∧ s.env.frames = [0x04] :: [] ∧
      s.env.answers = List.replicate (4 + 8 * s.params.initTable.length) Answer.ok ++ [] ∧
      s.env.levels = waitLevels s.cfg 2 ++ [] ∧ belowBound s.cfg 2 ∧
      u.env.levels = waitLevels u.cfg 3 ++ [] ∧ belowBound u.cfg 3 := by decide

/-- The first entry at its first issuance, the last entry at its second. -/
theorem witness_InitAbortsAtTheFailingEntry :
    (let s := idle .poweredOn [[0x04]] (List.replicate 5 .ok ++ [.fault]) [.low, .low, .high]
     s.run = .idle ∧ s.env.frames = [0x04] :: [] ∧
       s.params.initTable[0]? = some ⟨0xA0, []⟩ ∧
       s.env.answers =
         List.replicate (4 + 8 * 0 + (if false then 5 else 1)) Answer.ok ++ Answer.fault :: [] ∧
       s.env.levels = waitLevels s.cfg 2 ++ [] ∧ belowBound s.cfg 2) ∧
    (let s := idle .poweredOn [[0x04]] (List.replicate 25 .ok ++ [.fault]) [.high]
     s.params.initTable[2]? = some ⟨0xA2, [0x21, 0x22]⟩ ∧
       s.env.answers =
         List.replicate (4 + 8 * 2 + (if true then 5 else 1)) Answer.ok ++ Answer.fault :: [] ∧
       s.env.levels = waitLevels s.cfg 0 ++ [] ∧ belowBound s.cfg 0) := by
  decide

/-- From `Initialized`, and from `Uninitialized` where the lifecycle is not enforced (V39). -/
theorem witness_WriteRunsToCompletion :
    let s := idle .initialized [0x05 :: (payloadOf 15).bytes] (List.replicate 8 .ok) []
    let u := { idle .uninitialized [[0x05, 0x10]] (List.replicate 8 .ok) [] with
      cfg := cfg none false }
    s.run = .idle ∧ s.cfg.strict = true ∧ s.life = .initialized ∧ s.life ≠ .writing ∧
      s.env.frames = (0x05 :: (payloadOf 15).bytes) :: [] ∧
      (payloadOf 15).length ≤ s.params.maxPayload ∧
      s.env.answers = List.replicate 8 Answer.ok ++ [] ∧
      u.cfg.strict = false ∧ u.life ≠ .initialized ∧ u.life ≠ .writing := by decide

theorem witness_SleepRunsToCompletion :
    let s := idle .initialized [[0x06]] (List.replicate 8 .ok) []
    s.run = .idle ∧ s.cfg.strict = true ∧ s.life = .initialized ∧ s.env.frames = [0x06] :: [] ∧
      1 ≤ s.params.tSleepMs ∧ s.env.answers = List.replicate 8 Answer.ok ++ [] := by decide

theorem witness_ConstructionGivesTheResetState :
    params.WellFormed (cfg none true) ∧ ¬ params.WellFormed (cfg (some 0) true) := by decide

theorem witness_ConstructedStatesMeetTheInvariant : params.WellFormed (cfg none true) := by decide

/-- A WRITE in flight at its micro-operation `n`, with the latches given. -/
def writeAt (n : Nat) (ps : Pins) : State :=
  { inside (.write ⟨0x10, []⟩) n .read 0 [.ok, .ok, .ok] [] with pins := ps }

/-- The record in flight of `writeAt`. -/
def writeRec (n : Nat) : RunRec := rec (.write ⟨0x10, []⟩) n .read 0

/-- A WRITE in flight, at its first bus write, the primary select low. -/
def writing : State := writeAt 1 ⟨.low, .unknown, .unknown⟩

/-- A WRITE with all eight micro-operations done. -/
def written : State := writeAt 8 ⟨.high, .high, .low⟩

/-- RESET, all seven micro-operations done. -/
def resetDone : State :=
  { inside .reset 7 .read 0 [] [] with pins := ⟨.unknown, .unknown, .low⟩ }

/-- The invariant of a state in flight, from facts that `decide` settles. -/
theorem inv_inside (s : State) (r : RunRec) (hw : s.params.WellFormed s.cfg)
    (hk : s.result = ⟨.ok, .noPin, .noStage⟩) (hr : s.run = .busy r)
    (hm : r.mp = program s.params r.op) (hu : r.upc ≤ r.mp.length)
    (hl : s.life = .writing → ∃ P, r.op = .write P) (hp : r.pollPh = .read) (h0 : r.polls = 0)
    (hb : s.cfg.maxPolls = some 3) (hwl : ∀ P, r.op = .write P → P.length ≤ s.params.maxPayload)
    (ht : ∀ l, (lastSet .cs1 (r.mp.take r.upc) = some l → s.pins.cs1 = latchOf l) ∧
      (lastSet .cs2 (r.mp.take r.upc) = some l → s.pins.cs2 = latchOf l) ∧
      (lastSet .rst (r.mp.take r.upc) = some l → s.pins.rst = latchOf l)) : Inv s := by
  refine ⟨hw, by simp [hk], by simp [hr], fun q hq => ?_⟩
  rw [hr] at hq
  injection hq with hq
  subst hq
  refine ⟨hm, hu, hl, hwl, ⟨by simp [hp], by simp [h0], fun n hn => ?_⟩, fun p l h => ?_⟩
  · rw [hb] at hn
    injection hn with hn
    omega
  · cases p
    · exact (ht l).1 h
    · exact (ht l).2.1 h
    · exact (ht l).2.2 h

theorem inv_writeAt (n : Nat) (ps : Pins) (hn : n ≤ 8)
    (ht : ∀ l, (lastSet .cs1 ((writeRec n).mp.take n) = some l → ps.cs1 = latchOf l) ∧
      (lastSet .cs2 ((writeRec n).mp.take n) = some l → ps.cs2 = latchOf l) ∧
      (lastSet .rst ((writeRec n).mp.take n) = some l → ps.rst = latchOf l)) :
    Inv (writeAt n ps) :=
  inv_inside (writeAt n ps) (writeRec n) test_wf_fixture rfl rfl rfl hn (fun _ => ⟨_, rfl⟩) rfl rfl rfl
    (fun P h => by injection h with h; subst h; exact show 1 ≤ 16 by decide) ht

theorem inv_writing : Inv writing := inv_writeAt 1 _ (by decide) (by intro l; cases l <;> decide)

theorem inv_written : Inv written := inv_writeAt 8 _ (by decide) (by intro l; cases l <;> decide)

theorem inv_resetDone : Inv resetDone :=
  inv_inside resetDone (rec .reset 7 .read 0) (by decide) rfl rfl rfl (by decide)
    (fun h => absurd h (by decide)) rfl rfl rfl (fun _ h => nomatch h)
    (by intro l; cases l <;> decide)

theorem witness_StepKeepsTheInvariant : Inv writing ∧ ∃ t, step writing = .next t :=
  ⟨inv_writing, _, rfl⟩

theorem witness_StepNeverStops : Inv writing := inv_writing

/-- Every position of the first clause, the two bus writes (positions 1 and 5) being those of the other
two clauses. -/
theorem witness_ChipSelectIsLowDuringItsIssuance :
    (∀ n, (writeRec n).mp.take 8 = split ⟨0x10, []⟩) ∧
    (∀ n ps, (writeAt n ps).run = .busy (writeRec n)) ∧
    Inv (writeAt 1 ⟨.low, .unknown, .low⟩) ∧ Inv (writeAt 2 ⟨.low, .unknown, .low⟩) ∧
    Inv (writeAt 4 ⟨.high, .high, .low⟩) ∧ Inv (writeAt 5 ⟨.high, .low, .low⟩) ∧
    Inv (writeAt 6 ⟨.high, .low, .low⟩) ∧ Inv (writeAt 8 ⟨.high, .high, .low⟩) ∧
    (writeRec 1).mp[1]? = some (.xfer ⟨0x10, []⟩) ∧ (writeRec 5).mp[5]? = some (.xfer ⟨0x10, []⟩) ∧
    writing.env.answers = [Answer.ok, .ok, .ok] ++ [] :=
  ⟨fun _ => rfl, fun _ _ => rfl,
    inv_writeAt _ _ (by decide) (by intro l; cases l <;> decide),
    inv_writeAt _ _ (by decide) (by intro l; cases l <;> decide),
    inv_writeAt _ _ (by decide) (by intro l; cases l <;> decide),
    inv_writeAt _ _ (by decide) (by intro l; cases l <;> decide),
    inv_writeAt _ _ (by decide) (by intro l; cases l <;> decide),
    inv_writeAt _ _ (by decide) (by intro l; cases l <;> decide), rfl, rfl, rfl⟩

/-- A completed operation with a bus write, and a completed RESET. -/
theorem witness_CompletionLeavesThePins :
    (Inv written ∧ written.run = .busy (rec (.write ⟨0x10, []⟩) 8 .read 0) ∧
      .xfer ⟨0x10, []⟩ ∈ (rec (.write ⟨0x10, []⟩) 8 .read 0).mp ∧ ∃ t, step written = .next t) ∧
    (Inv resetDone ∧ resetDone.run = .busy (rec .reset 7 .read 0) ∧
      (rec .reset 7 .read 0).op = .reset ∧ ∃ t, step resetDone = .next t) :=
  ⟨⟨inv_written, rfl, by decide, _, rfl⟩, inv_resetDone, rfl, rfl, _, rfl⟩

theorem witness_ConfigurationNeverChanges :
    (nextOf (exec .reset (idle .reset [] [] []))).isSome = true ∧
      (nextOf (step (idle .reset [[0x04]] [] []))).isSome = true ∧
      upcAfter (step (inside .sleep 8 .read 0 [] [])) = some 9 ∧
      (inside .sleep 8 .read 0 [] []).run = .busy (rec .sleep 8 .read 0) ∧
      Instr.stat.channel = .command := by decide

/-- A WRITE that changes `LIFE`, and a rejection that changes `RESULT`. -/
theorem witness_CommandsLeaveThePortAlone :
    (Instr.write ⟨0x10, []⟩).channel = .command ∧
    (nextOf (exec (.write ⟨0x10, []⟩) (idle .initialized [] [] []))).map State.life =
      some .writing ∧
    (nextOf (exec (.write ⟨0x10, []⟩) (idle .sleeping [] [] []))).map State.result =
      some ⟨.precondition, .noPin, .write⟩ := by decide

/-- A micro-operation that aborts, one that does not, and a panel payload. -/
theorem witness_MicroOperationsLeaveTheRestAlone :
    (Instr.set .rst .low).channel = .internal ∧ Instr.pon.channel = .panel ∧
    (nextOf (exec (.set .rst .low) (inside .reset 6 .read 0 [.fault] []))).map State.run =
      some .idle ∧
    upcAfter (exec (.set .rst .low) (inside .reset 6 .read 0 [.ok] [])) = some 7 ∧
    upcAfter (exec .pon (inside .powerOn 1 .read 0 [.ok] [])) = some 2 := by decide

theorem witness_OneEventPerMicroStep :
    let s := inside .reset 6 .read 0 [.fault] []
    s.run = .busy (rec .reset 6 .read 0) ∧
      (rec .reset 6 .read 0).upc < (rec .reset 6 .read 0).mp.length ∧
      (nextOf (step s)).isSome = true := by decide

theorem witness_FaultsAreNeverIgnored :
    let s := inside .reset 6 .read 0 [.fault] []
    s.run = .busy (rec .reset 6 .read 0) ∧
      (rec .reset 6 .read 0).mp[6]? = some (.set .rst .low) ∧
      answersTaken [.set .rst .low] = 1 ∧ s.answer = .fault ∧
      (nextOf (step s)).isSome = true ∧
      upcAfter (step (inside .reset 6 .read 0 [.ok] [])) = some 7 := by decide

/-- Each of the three writers. -/
theorem witness_LifeHasThreeWriters :
    (nextOf (step (idle .initialized [[0x05, 0x10]] [] []))).map State.life = some .writing ∧
    (nextOf (step written)).map State.life = some .initialized ∧
    (nextOf (step (inside .sleep 0 .read 0 [.fault] []))).map State.life = some .failed := by decide

/-- SLEEP about to lower the primary select, which faults. -/
def raised : State := { inside .sleep 0 .read 0 [.fault] [] with pins := ⟨.high, .high, .low⟩ }

theorem witness_PinsHaveOneWriter :
    (nextOf (step (inside .sleep 0 .read 0 [.ok] []))).map (fun t => t.pins.get .cs1) = some .low ∧
    (inside .sleep 0 .read 0 [.ok] []).pins.get .cs1 = .unknown ∧
    (nextOf (step raised)).map (fun t => t.pins.get .cs1) = some .unknown ∧
    raised.pins.get .cs1 = .high := by decide

theorem witness_EveryCommandIsAnsweredOnce :
    (nextOf (step (idle .reset [[0x00]] [] []))).isSome = true ∧
    (nextOf (step (idle .reset [[0x07]] [] []))).map State.result =
      some ⟨.illegalCommand, .noPin, .noStage⟩ := by decide

theorem witness_BusyPolarityIsInvisible :
    (inside .waitBusy 0 .read 0 [] [.low]).env.levels ≠ [] ∧
      (nextOf (step (inside .waitBusy 0 .read 0 [] [.low]))).isSome = true := by decide

/-- At a bus write, and at a step within the same split write. -/
theorem witness_DesignersRegistersAgree :
    Inv writing ∧ writing.run = .busy (writeRec 1) ∧
      (writeRec 1).mp[1]? = some (.xfer ⟨0x10, []⟩) ∧
      SubBlock.at params (.write ⟨0x10, []⟩) 1 = some (.table 0 (.split 1)) ∧
      upcAfter (step writing) = some 2 ∧
      SubBlock.at params (.write ⟨0x10, []⟩) 2 = some (.table 0 (.split 2)) :=
  ⟨inv_writing, rfl, rfl, by decide, by decide, by decide⟩

end Sys2Proof.Tests
end

section
/-! PROOFS. What an instruction can do, by the channel it travels on, and what every instruction and
every step leave unchanged (20_memory.md R64). -/

namespace Sys2Proof.Machine

/-- A command presented while an operation is in flight is held, whatever it is (R180). -/
theorem exec_command_busy (i : Instr) (s t : State) (r : RunRec) (hr : s.run = .busy r)
    (hc : i.channel = .command) (h : exec i s = .next t) : ∃ F, t = s.holdFrame F := by
  have held (F : Frame) (act : State → State)
      (he : Host.Outcome.next (whenIdle F act s) =
        (Host.Outcome.next t : Host.Outcome State Fault Refusal)) : ∃ F, t = s.holdFrame F := by
    injection he with he
    rw [whenIdle_busy F act s r hr] at he
    exact ⟨F, he.symm⟩
  cases i with
  | stat | reset | waitBusy | powerOn | init | write _ | sleep | reserved07 _ | reservedHigh _ _ =>
    exact held _ _ h
  | resp _ _ _ _ | pon | drf | pof | dslp | set _ _ | xfer _ | dly _ | poll => cases hc

/-- What a micro-operation or a panel payload does: one of the four shared operations, on the
operation in flight (R100, R102 to R104, R144, R145). -/
theorem exec_port_cases (i : Instr) (s t : State)
    (hc : i.channel = .internal ∨ i.channel = .panel) (h : exec i s = .next t) :
    ∃ r, s.run = .busy r ∧
      ((∃ p l, i = .set p l ∧ t = pinSetOp p l r s) ∨ (∃ P, t = busWriteOp P r s) ∨
       (∃ n, i = .dly n ∧ t = delayOp n r s) ∨ (i = .poll ∧ t = pollOp r s)) := by
  have acts (act : RunRec → State → State) (he : inFlight act s = .next t) :
      ∃ r, s.run = .busy r ∧ t = act r s := by
    obtain ⟨r, hr, ht⟩ := (inFlight_eq_next_iff act s t).1 he
    exact ⟨r, hr, ht.symm⟩
  cases i with
  | stat | reset | waitBusy | powerOn | init | write _ | sleep | reserved07 _ | reservedHigh _ _
  | resp _ _ _ _ => simp [Instr.channel] at hc
  | pon | drf | pof | dslp | xfer _ =>
    obtain ⟨r, hr, ht⟩ := acts _ h
    exact ⟨r, hr, .inr (.inl ⟨_, ht⟩)⟩
  | set p l =>
    obtain ⟨r, hr, ht⟩ := acts _ h
    exact ⟨r, hr, .inl ⟨p, l, rfl, ht⟩⟩
  | dly n =>
    obtain ⟨r, hr, ht⟩ := acts _ h
    exact ⟨r, hr, .inr (.inr (.inl ⟨n, rfl, ht⟩))⟩
  | poll =>
    obtain ⟨r, hr, ht⟩ := acts _ h
    exact ⟨r, hr, .inr (.inr (.inr ⟨rfl, ht⟩))⟩

/-- `t` has the configuration and the parameters of `s`. -/
def SameConfig (s t : State) : Prop := t.cfg = s.cfg ∧ t.params = s.params

/-- What is in flight in `t`, if anything, is the operation of `r` with its micro-program. -/
def SameOperation (r : RunRec) (t : State) : Prop :=
  ∀ q, t.run = .busy q → q.op = r.op ∧ q.mp = r.mp

theorem sameOperation_of_idle (r : RunRec) (t : State) (h : t.run = .idle) :
    SameOperation r t := by
  intro q hq
  rw [h] at hq
  cases hq

theorem sameOperation_of_busy (r q : RunRec) (t : State) (h : t.run = .busy q)
    (hop : q.op = r.op) (hmp : q.mp = r.mp) : SameOperation r t := by
  intro q' hq
  rw [h] at hq
  cases hq
  exact ⟨hop, hmp⟩

theorem pinSetOp_keeps (p : Pin) (l : Level) (r : RunRec) (s : State) :
    SameConfig s (pinSetOp p l r s) ∧ SameOperation r (pinSetOp p l r s) := by
  rcases pinSetOp_cases p l r s with ⟨-, ht⟩ | ⟨-, ht⟩ <;> rw [ht]
  · exact ⟨⟨rfl, rfl⟩, sameOperation_of_busy r _ _ rfl rfl rfl⟩
  · exact ⟨⟨rfl, rfl⟩, sameOperation_of_idle r _ rfl⟩

theorem busWriteOp_keeps (P : Payload) (r : RunRec) (s : State) :
    SameConfig s (busWriteOp P r s) ∧ SameOperation r (busWriteOp P r s) := by
  rcases busWriteOp_cases P r s with ⟨-, ht⟩ | ⟨-, ht⟩ <;> rw [ht]
  · exact ⟨⟨rfl, rfl⟩, sameOperation_of_busy r _ _ rfl rfl rfl⟩
  · exact ⟨⟨rfl, rfl⟩, sameOperation_of_idle r _ rfl⟩

theorem delayOp_keeps (n : Nat) (r : RunRec) (s : State) :
    SameConfig s (delayOp n r s) ∧ SameOperation r (delayOp n r s) :=
  ⟨⟨rfl, rfl⟩, sameOperation_of_busy r _ _ rfl rfl rfl⟩

theorem pollOp_keeps (r : RunRec) (s : State) :
    SameConfig s (pollOp r s) ∧ SameOperation r (pollOp r s) := by
  rcases pollOp_cases r s with ⟨-, -, ht⟩ | ⟨-, -, ht⟩ | ⟨-, -, ht⟩ | ⟨-, -, ht⟩ <;> rw [ht]
  · exact ⟨⟨rfl, rfl⟩, sameOperation_of_busy r _ _ rfl rfl rfl⟩
  · exact ⟨⟨rfl, rfl⟩, sameOperation_of_busy r _ _ rfl rfl rfl⟩
  · exact ⟨⟨rfl, rfl⟩, sameOperation_of_idle r _ rfl⟩
  · exact ⟨⟨rfl, rfl⟩, sameOperation_of_busy r _ _ rfl rfl rfl⟩

theorem exec_command_sameConfig (i : Instr) (s t : State) (hc : i.channel = .command)
    (h : exec i s = .next t) : SameConfig s t := by
  cases hr : s.run with
  | idle =>
    rcases exec_command_cases i s t hc hr h with ⟨-, rfl⟩ | ⟨k, st, -, rfl⟩ | ⟨op, -, rfl, -⟩ <;>
      exact ⟨rfl, rfl⟩
  | busy r =>
    obtain ⟨F, rfl⟩ := exec_command_busy i s t r hr hc h
    exact ⟨rfl, rfl⟩

theorem exec_port_sameConfig (i : Instr) (s t : State)
    (hc : i.channel = .internal ∨ i.channel = .panel) (h : exec i s = .next t) :
    SameConfig s t := by
  obtain ⟨r, -, ⟨p, l, -, rfl⟩ | ⟨P, rfl⟩ | ⟨n, -, rfl⟩ | ⟨-, rfl⟩⟩ := exec_port_cases i s t hc h
  · exact (pinSetOp_keeps p l r s).1
  · exact (busWriteOp_keeps P r s).1
  · exact (delayOp_keeps n r s).1
  · exact (pollOp_keeps r s).1

theorem exec_response_eq (i : Instr) (s t : State) (hc : i.channel = .response)
    (h : exec i s = .next t) : ∃ k l p st, i = .resp k l p st ∧ t = s.sendResp k l p st := by
  cases i with
  | resp k l p st =>
    injection h with h
    exact ⟨k, l, p, st, rfl, h.symm⟩
  | stat | reset | waitBusy | powerOn | init | write _ | sleep | reserved07 _ | reservedHigh _ _
  | pon | drf | pof | dslp | set _ _ | xfer _ | dly _ | poll => cases hc

theorem exec_sameConfig (i : Instr) (s t : State) (h : exec i s = .next t) : SameConfig s t := by
  cases hc : i.channel with
  | command => exact exec_command_sameConfig i s t hc h
  | response =>
    obtain ⟨k, l, p, st, -, rfl⟩ := exec_response_eq i s t hc h
    exact ⟨rfl, rfl⟩
  | panel => exact exec_port_sameConfig i s t (.inr hc) h
  | internal => exact exec_port_sameConfig i s t (.inl hc) h

theorem step_busy_keeps (s t : State) (r : RunRec) (hr : s.run = .busy r)
    (h : step s = .next t) : SameConfig s t ∧ SameOperation r t := by
  rcases step_busy_cases s t r hr h with ⟨m, -, rfl⟩ | ⟨-, rfl⟩
  · cases m with
    | set p l => exact pinSetOp_keeps p l r s
    | xfer P => exact busWriteOp_keeps P r s
    | dly n => exact delayOp_keeps n r s
    | poll => exact pollOp_keeps r s
  · exact ⟨⟨rfl, rfl⟩, sameOperation_of_idle r _ rfl⟩

theorem step_sameConfig (s t : State) (h : step s = .next t) : SameConfig s t := by
  cases hr : s.run with
  | busy r => exact (step_busy_keeps s t r hr h).1
  | idle =>
    rcases step_idle_cases s t hr h with
      ⟨-, rfl⟩ | ⟨F, rest, -, rfl | ⟨k, st, -, rfl⟩ | ⟨op, -, rfl, -⟩⟩ <;> exact ⟨rfl, rfl⟩

/-- Settles O51: no shared operation writes the configuration or the parameters; an operation in
flight goes on with its own micro-program or ends; and a command presented meanwhile is held. -/
theorem configurationNeverChanges : Obligations.ConfigurationNeverChanges := by
  unfold Obligations.ConfigurationNeverChanges
  refine ⟨exec_sameConfig, step_sameConfig, ?_, ?_⟩
  · intro s t r q hr h hq
    exact (step_busy_keeps s t r hr h).2 q hq
  · intro i s t r hr hc h
    obtain ⟨F, rfl⟩ := exec_command_busy i s t r hr hc h
    rfl

end Sys2Proof.Machine
end

section
/-! PROOFS. The micro-engine (40_microengine.md): what SET, XFER and DLY do, how an operation ends
(R102 to R106), and the delays and lengths of the micro-programs (R104, R107, R108). -/

namespace Sys2Proof.Machine

/-! The effect of SET, XFER and DLY on the operation in flight, answer by answer. -/

theorem exec_set_busy (p : Pin) (l : Level) (s : State) (r : RunRec) (hr : s.run = .busy r) :
    exec (.set p l) s = .next (pinSetOp p l r s) :=
  inFlight_busy _ s r hr

theorem exec_xfer_busy (P : Payload) (s : State) (r : RunRec) (hr : s.run = .busy r) :
    exec (.xfer P) s = .next (busWriteOp P r s) :=
  inFlight_busy _ s r hr

theorem exec_dly_busy (n : Nat) (s : State) (r : RunRec) (hr : s.run = .busy r) :
    exec (.dly n) s = .next (delayOp n r s) :=
  inFlight_busy _ s r hr

theorem pinSetOp_of_ok (p : Pin) (l : Level) (r : RunRec) (s : State) (h : s.answer = .ok) :
    pinSetOp p l r s = (((s.emit (.pinSet p l)).takeAnswer).setPin p (latchOf l)).advance r := by
  simp [pinSetOp, h]

theorem pinSetOp_of_fault (p : Pin) (l : Level) (r : RunRec) (s : State) (h : s.answer = .fault) :
    pinSetOp p l r s =
      (((s.emit (.pinSet p l)).takeAnswer).setPin p .unknown).abort
        (.pinFault (pinTag p)) r.op := by
  simp [pinSetOp, h]

theorem busWriteOp_of_ok (P : Payload) (r : RunRec) (s : State) (h : s.answer = .ok) :
    busWriteOp P r s = ((s.emit (.busWrite P)).takeAnswer).advance r := by
  simp [busWriteOp, h]

theorem busWriteOp_of_fault (P : Payload) (r : RunRec) (s : State) (h : s.answer = .fault) :
    busWriteOp P r s = ((s.emit (.busWrite P)).takeAnswer).abort .busFault r.op := by
  simp [busWriteOp, h]

/-- Settles O18: SET in flight is `pinSetOp`, whose two answers are the two clauses. -/
theorem setDrivesThePin : Obligations.SetDrivesThePin := by
  unfold Obligations.SetDrivesThePin
  intro s r p l hr
  rw [exec_set_busy p l s r hr]
  constructor
  · intro hok
    rw [pinSetOp_of_ok p l r s hok]
    rfl
  · intro hfault
    rw [pinSetOp_of_fault p l r s hfault]
    rfl

/-- Settles O19: XFER in flight is `busWriteOp`, whose two answers are the two clauses. -/
theorem xferSendsThePayload : Obligations.XferSendsThePayload := by
  unfold Obligations.XferSendsThePayload
  intro s r P hr
  rw [exec_xfer_busy P s r hr]
  constructor
  · intro hok
    rw [busWriteOp_of_ok P r s hok]
    rfl
  · intro hfault
    rw [busWriteOp_of_fault P r s hfault]
    rfl

/-! How an operation ends: a micro step can end it by the abort only (R206), so a result `Ok` comes
from the complete step (R106). -/

theorem pinSetOp_abort_of_idle (p : Pin) (l : Level) (r : RunRec) (s : State)
    (hi : (pinSetOp p l r s).run = .idle) : ∃ u f, pinSetOp p l r s = State.abort u f r.op := by
  rcases pinSetOp_cases p l r s with ⟨-, ht⟩ | ⟨-, ht⟩
  · simp [ht] at hi
  · exact ⟨_, _, ht⟩

theorem busWriteOp_abort_of_idle (P : Payload) (r : RunRec) (s : State)
    (hi : (busWriteOp P r s).run = .idle) : ∃ u f, busWriteOp P r s = State.abort u f r.op := by
  rcases busWriteOp_cases P r s with ⟨-, ht⟩ | ⟨-, ht⟩
  · simp [ht] at hi
  · exact ⟨_, _, ht⟩

theorem delayOp_run_ne_idle (n : Nat) (r : RunRec) (s : State) : (delayOp n r s).run ≠ .idle := by
  simp [delayOp]

theorem pollOp_abort_of_idle (r : RunRec) (s : State) (hi : (pollOp r s).run = .idle) :
    ∃ u f, pollOp r s = State.abort u f r.op := by
  rcases pollOp_cases r s with ⟨-, -, ht⟩ | ⟨-, -, ht⟩ | ⟨-, -, ht⟩ | ⟨-, -, ht⟩
  · simp [ht] at hi
  · simp [ht] at hi
  · exact ⟨_, _, ht⟩
  · simp [ht] at hi

/-- A step that ends the operation in flight is an abort or the complete step. -/
theorem step_busy_ends (s t : State) (r : RunRec) (hr : s.run = .busy r) (h : step s = .next t)
    (hi : t.run = .idle) :
    (∃ u f, t = State.abort u f r.op) ∨ (r.upc = r.mp.length ∧ t = s.complete r.op) := by
  rcases step_busy_cases s t r hr h with ⟨m, -, rfl⟩ | hend
  · left
    cases m with
    | set p l => exact pinSetOp_abort_of_idle p l r s hi
    | xfer P => exact busWriteOp_abort_of_idle P r s hi
    | dly n => exact absurd hi (delayOp_run_ne_idle n r s)
    | poll => exact pollOp_abort_of_idle r s hi
  · exact .inr hend

theorem MicroFault.kind_ne_ok (f : MicroFault) : f.kind ≠ .ok := by
  cases f <;> simp [MicroFault.kind]

/-- Settles O27: at `UPC = |MP|` the step is the complete step; and an operation that ends otherwise
ends by an abort, whose result names a fault. -/
theorem onlyCompletionEndsWithOk : Obligations.OnlyCompletionEndsWithOk := by
  unfold Obligations.OnlyCompletionEndsWithOk
  constructor
  · intro s r hr hend
    rw [step_busy_end s r hr hend]
    rfl
  · intro s t r hr h hi hok
    rcases step_busy_ends s t r hr h hi with ⟨u, f, rfl⟩ | ⟨hend, -⟩
    · exact absurd hok f.kind_ne_ok
    · exact hend

/-! Which delays the micro-programs hold (R104). -/

theorem issueTable_eq_flatMap (T : List Entry) : issueTable T = T.flatMap entryOps := by
  induction T with
  | nil => rfl
  | cons e t ih => rw [issueTable, ih, List.flatMap_cons]

theorem mem_issueTable_iff (m : MicroOp) (T : List Entry) :
    m ∈ issueTable T ↔ ∃ e ∈ T, m ∈ entryOps e := by
  rw [issueTable_eq_flatMap, List.mem_flatMap]

theorem dly_notMem_split (P : Payload) (n : Nat) : .dly n ∉ split P := by
  simp [split]

theorem dly_mem_resetSeq_iff (p : Params) (n : Nat) : .dly n ∈ resetSeq p ↔ n = p.tResetMs := by
  simp [resetSeq]

theorem dly_mem_dlyOps_iff (d n : Nat) : .dly n ∈ dlyOps d ↔ 0 < d ∧ n = d := by
  by_cases h : 0 < d <;> simp [dlyOps, h]

theorem dly_notMem_waitOps (w : Bool) (n : Nat) : .dly n ∉ waitOps w := by
  cases w <;> simp [waitOps]

/-- An entry asks for its own delay, and for none where that is 0 (R107). -/
theorem dly_mem_entryOps_iff (e : Entry) (n : Nat) :
    .dly n ∈ entryOps e ↔ 0 < e.dly ∧ n = e.dly := by
  simp [entryOps, dly_notMem_split, dly_notMem_waitOps, dly_mem_dlyOps_iff]

theorem dly_mem_issueTable_iff (T : List Entry) (n : Nat) :
    .dly n ∈ issueTable T ↔ ∃ e ∈ T, 0 < e.dly ∧ n = e.dly := by
  simp [mem_issueTable_iff, dly_mem_entryOps_iff]

theorem dly_notMem_initEntries (p : Params) (n : Nat) : .dly n ∉ issueTable (initEntries p) := by
  simp [dly_mem_issueTable_iff, initEntries]

/-- The delays of each micro-program: the pulse train's in RESET and INIT, the settling delay in
POWER_ON, the sleep delay in SLEEP, none in the others. -/
theorem dly_mem_program (p : Params) (op : HostOp) (n : Nat) (h : .dly n ∈ program p op) :
    n = p.tResetMs ∨ (0 < n ∧ n = p.tPonSettleMs) ∨ (0 < n ∧ n = p.tSleepMs) := by
  cases op with
  | reset => exact .inl ((dly_mem_resetSeq_iff p n).1 h)
  | waitBusy => simp [program] at h
  | powerOn =>
    obtain ⟨e, he, hpos, rfl⟩ := (dly_mem_issueTable_iff _ n).1 h
    simp only [powerTable, List.mem_cons, List.not_mem_nil, or_false] at he
    rcases he with rfl | rfl | rfl
    · exact .inr (.inl ⟨hpos, rfl⟩)
    · exact absurd hpos (Nat.lt_irrefl 0)
    · exact absurd hpos (Nat.lt_irrefl 0)
  | init =>
    left
    simpa [program, dly_mem_resetSeq_iff, dly_notMem_initEntries] using h
  | write P => exact absurd h (dly_notMem_split P n)
  | sleep =>
    obtain ⟨e, he, hpos, rfl⟩ := (dly_mem_issueTable_iff _ n).1 h
    obtain rfl := List.mem_singleton.1 he
    exact .inr (.inr ⟨hpos, rfl⟩)

/-- Settles O20: DLY in flight is `delayOp`; the delays of a micro-program are those of its tables
and of the pulse train; and an entry asks for its delay only where that is positive. -/
theorem dlyAsksForTheDelay : Obligations.DlyAsksForTheDelay := by
  unfold Obligations.DlyAsksForTheDelay
  refine ⟨fun s r n hr => exec_dly_busy n s r hr, ?_, ?_⟩
  · intro c p op n hwf hn
    obtain ⟨-, hreset, -⟩ := hwf
    rcases dly_mem_program p op n hn with rfl | ⟨hpos, hset⟩ | ⟨hpos, hsleep⟩
    · exact ⟨hreset, .inl rfl⟩
    · exact ⟨hpos, .inr (.inl hset)⟩
    · exact ⟨hpos, .inr (.inr hsleep)⟩
  · intro P w n hn
    exact absurd ((dly_mem_entryOps_iff _ n).1 hn).1 (Nat.lt_irrefl 0)

/-! How long the micro-programs are (R108). -/

@[simp] theorem length_split (P : Payload) : (split P).length = 8 := rfl

@[simp] theorem length_resetSeq (p : Params) : (resetSeq p).length = 7 := rfl

theorem length_entryOps (e : Entry) :
    (entryOps e).length = 8 + (if e.wait then 1 else 0) + (if 0 < e.dly then 1 else 0) := by
  simp only [entryOps, waitOps, dlyOps, List.length_append, length_split, apply_ite List.length,
    List.length_cons, List.length_nil]

/-- The table of INIT is one split write for each of its payloads (R163). -/
theorem issueTable_initEntries (p : Params) :
    issueTable (initEntries p) = p.initTable.flatMap split := by
  simp only [issueTable_eq_flatMap, initEntries, List.flatMap_map, entryOps_plain]

theorem length_flatMap_split (l : List Payload) : (l.flatMap split).length = 8 * l.length := by
  induction l with
  | nil => rfl
  | cons P t ih =>
    rw [List.flatMap_cons, List.length_append, ih, length_split, List.length_cons]
    omega

theorem length_issueTable_initEntries (p : Params) :
    (issueTable (initEntries p)).length = 8 * p.initTable.length := by
  rw [issueTable_initEntries, length_flatMap_split]

theorem length_program_powerOn (p : Params) (h : 1 ≤ p.tPonSettleMs) :
    (program p .powerOn).length = 27 := by
  have hpos : 0 < p.tPonSettleMs := h
  simp [program, powerTable, issueTable, length_entryOps, hpos]

theorem length_program_init (p : Params) :
    (program p .init).length = 8 + 8 * p.initTable.length := by
  simp only [program, List.length_append, length_resetSeq, List.length_singleton,
    length_issueTable_initEntries]

theorem length_program_sleep (p : Params) (h : 1 ≤ p.tSleepMs) : (program p .sleep).length = 9 := by
  have hpos : 0 < p.tSleepMs := h
  simp [program, sleepTable, issueTable, length_entryOps, hpos]

/-- STAT answers and starts nothing (R172). -/
theorem exec_stat_idle (s : State) (hi : s.run = .idle) : exec .stat s = .next s.respond :=
  congrArg Host.Outcome.next (whenIdle_idle _ _ s hi)

/-- Settles O28: each micro-program is the one `program` gives, its length that of its parts;
`start` puts it in `RUN` at `UPC = 0`; STAT only responds. -/
theorem programsOfTheOperations : Obligations.ProgramsOfTheOperations := by
  unfold Obligations.ProgramsOfTheOperations
  refine ⟨?_, fun s op => State.start_run s op, ?_⟩
  · intro c p hwf
    obtain ⟨-, -, hset, hsleep, -⟩ := hwf
    exact ⟨⟨rfl, length_resetSeq p⟩, ⟨rfl, rfl⟩, ⟨rfl, length_program_powerOn p hset⟩,
      ⟨rfl, length_program_init p⟩, fun P => ⟨rfl, length_split P⟩,
      ⟨rfl, length_program_sleep p hsleep⟩⟩
  · intro s t hi h
    rw [exec_stat_idle s hi] at h
    injection h with h
    rw [← h, State.respond_run, hi]

end Sys2Proof.Machine
end

section
/-! PROOFS. A stretch of a micro-program without a busy wait, performed with every answer `ok`, and
the reset pulse train (42_reset_sequencer.md) as such a stretch: whole, or cut at a faulted SET
(R130, R131, R134). -/

namespace Sys2Proof.Machine

/-! Stretches of micro-operations that hold no POLL (R102, R103, R104). -/

/-- `s` after the micro-operations `ops` of the operation `r`, none of them a POLL, all answered `ok`;
`as` are the answers that are left. -/
def State.performed (s : State) (r : RunRec) (ops : List MicroOp) (as : List Answer) : State :=
  { s with
    run := .busy { r with upc := r.upc + ops.length }
    pins := pinsAfter s.pins ops
    trace := s.trace ++ ops.map MicroOp.event
    env := { s.env with answers := as, draws := s.env.draws + answersTaken ops } }

theorem State.performed_nil (s : State) (r : RunRec) (hr : s.run = .busy r) :
    s.performed r [] s.env.answers = s := by
  cases s
  cases hr
  simp [State.performed, pinsAfter, answersTaken]

theorem State.performed_append (s : State) (r : RunRec) (a b : List MicroOp)
    (as bs : List Answer) :
    (s.performed r a as).performed { r with upc := r.upc + a.length } b bs =
      s.performed r (a ++ b) bs := by
  simp [State.performed, pinsAfter_append, answersTaken_append, Nat.add_assoc]

/-- A program that goes on with `m :: ops` at `k` has `m` at `k` and goes on with `ops` after it. -/
theorem cons_prefix_drop {α : Type} {m : α} {ops mp : List α} {k : Nat}
    (h : m :: ops <+: mp.drop k) : mp[k]? = some m ∧ ops <+: mp.drop (k + 1) := by
  obtain ⟨rest, h⟩ := h
  constructor
  · rw [← List.head?_drop, ← h]
    rfl
  · rw [← List.tail_drop, ← h]
    exact List.prefix_append ops rest

/-- One micro-operation other than POLL, answered `ok` if it asks for an answer (R102 to R104). -/
theorem step_performs (s : State) (r : RunRec) (m : MicroOp) (as : List Answer)
    (hr : s.run = .busy r) (hm : r.mp[r.upc]? = some m) (hw : waitsIn [m] = 0)
    (ha : s.env.answers = List.replicate (answersTaken [m]) .ok ++ as) :
    step s = .next (s.performed r [m] as) := by
  rw [step_busy_micro s r m hr hm]
  cases m with
  | set p l =>
    have ha : s.env.answers = .ok :: as := ha
    rw [MicroOp.instr, exec_set_busy p l s r hr, pinSetOp_of_ok p l r s (s.answer_cons _ _ ha)]
    simp [State.advance, State.setRun, State.setPin, State.takeAnswer, State.emit, ha,
      State.performed, pinsAfter, answersTaken, MicroOp.event]
  | xfer P =>
    have ha : s.env.answers = .ok :: as := ha
    rw [MicroOp.instr, exec_xfer_busy P s r hr, busWriteOp_of_ok P r s (s.answer_cons _ _ ha)]
    simp [State.advance, State.setRun, State.takeAnswer, State.emit, ha,
      State.performed, pinsAfter, answersTaken, MicroOp.event]
  | dly n =>
    have ha : s.env.answers = as := ha
    rw [MicroOp.instr, exec_dly_busy n s r hr, ← ha]
    rfl
  | poll => cases hw

/-- A stretch of micro-operations other than POLL, every answer `ok`, is performed in order, one step
each. -/
theorem runSteps_performs (s : State) (r : RunRec) (ops : List MicroOp) (as : List Answer)
    (hr : s.run = .busy r) (hmp : ops <+: r.mp.drop r.upc) (hw : waitsIn ops = 0)
    (ha : s.env.answers = List.replicate (answersTaken ops) .ok ++ as) :
    runSteps ops.length s = .next (s.performed r ops as) := by
  induction ops generalizing s r with
  | nil =>
    have ha : s.env.answers = as := ha
    rw [← ha, s.performed_nil r hr]
    rfl
  | cons m ops ih =>
    obtain ⟨hm, hops⟩ := cons_prefix_drop hmp
    obtain ⟨hwm, hwops⟩ : waitsIn [m] = 0 ∧ waitsIn ops = 0 := by
      have hsum := waitsIn_append [m] ops
      rw [List.singleton_append, hw] at hsum
      omega
    have ham : s.env.answers = List.replicate (answersTaken [m]) .ok ++
        (List.replicate (answersTaken ops) .ok ++ as) := by
      rw [ha, ← List.singleton_append, answersTaken_append, ← List.replicate_append_replicate,
        List.append_assoc]
    calc runSteps (ops.length + 1) s
      _ = runSteps ops.length (s.performed r [m] _) :=
        runSteps_succ _ s _ (step_performs s r m _ hr hm hwm ham)
      _ = .next ((s.performed r [m] _).performed { r with upc := r.upc + 1 } ops as) :=
        ih _ _ rfl hops hwops rfl
      _ = .next (s.performed r (m :: ops) as) :=
        congrArg _ (s.performed_append r [m] ops _ as)

/-- The micro-operation after such a stretch is executed in the state the stretch leaves. -/
theorem runSteps_performs_exec (s : State) (r : RunRec) (ops : List MicroOp) (m : MicroOp)
    (as : List Answer) (hr : s.run = .busy r) (hmp : ops ++ [m] <+: r.mp.drop r.upc)
    (hw : waitsIn ops = 0)
    (ha : s.env.answers = List.replicate (answersTaken ops) .ok ++ as) :
    runSteps (ops.length + 1) s = exec m.instr (s.performed r ops as) := by
  have hops : ops <+: r.mp.drop r.upc := (List.prefix_append ops [m]).trans hmp
  have hm : r.mp[r.upc + ops.length]? = some m := by
    obtain ⟨rest, hrest⟩ := hmp
    rw [← List.getElem?_drop, ← hrest]
    simp
  have hexec : exec m.instr (s.performed r ops as) = .next _ := exec_micro m _ _ rfl
  rw [runSteps_add _ 1 s _ (runSteps_performs s r ops as hr hops hw ha), hexec]
  exact runSteps_one _ _ ((step_busy_micro _ _ m rfl hm).trans hexec)

/-- A SET answered `fault` after such a stretch aborts the operation, its latch unknown (R102,
R206). -/
theorem runSteps_performs_set_fault (s : State) (r : RunRec) (ops : List MicroOp) (p : Pin)
    (l : Level) (as : List Answer) (hr : s.run = .busy r)
    (hmp : ops ++ [.set p l] <+: r.mp.drop r.upc) (hw : waitsIn ops = 0)
    (ha : s.env.answers = List.replicate (answersTaken ops) .ok ++ .fault :: as) :
    runSteps (ops.length + 1) s =
      .next ((((s.performed r ops (.fault :: as)).emit (.pinSet p l)).takeAnswer.setPin p
        .unknown).abort (.pinFault (pinTag p)) r.op) := by
  rw [runSteps_performs_exec s r ops (.set p l) (.fault :: as) hr hmp hw ha, MicroOp.instr,
    exec_set_busy p l _ { r with upc := r.upc + ops.length } rfl,
    pinSetOp_of_fault p l _ _ (State.answer_cons _ .fault as rfl)]

/-! Latches and the port trace along such a stretch. -/

theorem Pins.put_put (ps : Pins) (p : Pin) (a b : Latch) : (ps.put p a).put p b = ps.put p b := by
  cases p <;> rfl

/-- Writing a latch hides the SETs before it where they are all of that pin. -/
theorem pinsAfter_put (ps : Pins) (p : Pin) (x : Latch) (ops : List MicroOp)
    (h : ∀ q l, .set q l ∈ ops → q = p) : (pinsAfter ps ops).put p x = ps.put p x := by
  induction ops generalizing ps with
  | nil => rfl
  | cons m t ih =>
    have ht : ∀ q l, .set q l ∈ t → q = p := fun q l hq => h q l (List.mem_cons_of_mem m hq)
    cases m with
    | set q l =>
      obtain rfl := h q l List.mem_cons_self
      rw [pinsAfter, ih _ ht, Pins.put_put]
    | xfer P | dly n | poll => exact ih ps ht

theorem portTrace_append (a b : List Event) : portTrace (a ++ b) = portTrace a ++ portTrace b :=
  List.filter_append a b

theorem MicroOp.isPort_event (m : MicroOp) : (MicroOp.event m).isPort = true := by
  cases m <;> rfl

theorem portTrace_map_event (ops : List MicroOp) :
    portTrace (ops.map MicroOp.event) = ops.map MicroOp.event := by
  simp [portTrace, MicroOp.isPort_event]

/-! The pulse train: its SETs stand at the even indices, its delays at the odd ones (R130). -/

theorem map_event_resetSeq (p : Params) : (resetSeq p).map MicroOp.event = resetEvents p := rfl

/-- A program that begins with the pulse train goes on with it at `UPC = 0`. -/
theorem resetSeq_prefix_drop (p : Params) (r : RunRec) (hu : r.upc = 0)
    (hmp : r.mp.take 7 = resetSeq p) : resetSeq p <+: r.mp.drop r.upc := by
  rw [← hmp, hu]
  exact List.take_prefix 7 r.mp

theorem getElem?_resetSeq_cases (p : Params) (k : Nat) (m : MicroOp)
    (h : (resetSeq p)[k]? = some m) :
    (k % 2 = 0 ∧ ∃ l, m = .set .rst l) ∨ (k % 2 = 1 ∧ m = .dly p.tResetMs) := by
  have hk : k < 7 := (List.getElem?_eq_some_iff.1 h).1
  match k, hk, h with
  | 0, _, rfl | 2, _, rfl | 4, _, rfl | 6, _, rfl => exact .inl ⟨rfl, _, rfl⟩
  | 1, _, rfl | 3, _, rfl | 5, _, rfl => exact .inr ⟨rfl, rfl⟩

theorem set_mem_resetSeq (p : Params) (q : Pin) (l : Level) (h : .set q l ∈ resetSeq p) :
    q = .rst := by
  obtain ⟨k, hk⟩ := List.mem_iff_getElem?.1 h
  rcases getElem?_resetSeq_cases p k _ hk with ⟨-, l', hl⟩ | ⟨-, hd⟩
  · injection hl
  · cases hd

theorem take_succ_resetSeq (p : Params) (j : Nat) (hj : j < 4) :
    ∃ l, (resetSeq p).take (2 * j + 1) = (resetSeq p).take (2 * j) ++ [.set .rst l] := by
  match j, hj with
  | 0, _ | 1, _ | 2, _ | 3, _ => exact ⟨_, rfl⟩

theorem waitsIn_take_resetSeq (p : Params) (n : Nat) : waitsIn ((resetSeq p).take n) = 0 := by
  have h := waitsIn_append ((resetSeq p).take n) ((resetSeq p).drop n)
  rw [List.take_append_drop] at h
  have hz : waitsIn (resetSeq p) = 0 := rfl
  omega

theorem answersTaken_take_resetSeq (p : Params) (j : Nat) (hj : j < 4) :
    answersTaken ((resetSeq p).take (2 * j)) = j := by
  match j, hj with
  | 0, _ | 1, _ | 2, _ | 3, _ => rfl

/-- Settles O30: the pulse train holds no POLL, so with every answer `ok` its seven micro-operations
are performed in order. -/
theorem resetPulseTrain : Obligations.ResetPulseTrain := by
  unfold Obligations.ResetPulseTrain
  intro s r rest hr hu hmp ha
  have hrun : runSteps 7 s = .next (s.performed r (resetSeq s.params) rest) :=
    runSteps_performs s r (resetSeq s.params) rest hr (resetSeq_prefix_drop s.params r hu hmp) rfl ha
  have hsum : ((resetEvents s.params).map Event.delayMs).sum = 3 * s.params.tResetMs := by
    simp [resetEvents, Event.delayMs]
    omega
  refine ⟨_, resetEvents s.params, hrun, rfl, rfl, hsum, fun h => by rw [hsum, h], ?_, rfl, rfl,
    rfl, rfl⟩
  simp [State.performed, hu]

/-- A fault at the SET of index `2 j` of the pulse train, the SETs before it `ok`. -/
theorem resetSeq_faults_at (s : State) (r : RunRec) (j : Nat) (as : List Answer)
    (hr : s.run = .busy r) (hmp : resetSeq s.params <+: r.mp.drop r.upc) (hj : j < 4)
    (ha : s.env.answers = List.replicate j .ok ++ .fault :: as) :
    ∃ t, runSteps (2 * j + 1) s = .next t ∧ t.run = .idle ∧
      t.result = ⟨.pinFault, .rst, stage r.op⟩ ∧ t.pins = { s.pins with rst := .unknown } ∧
      portTrace t.trace = portTrace s.trace ++ (resetEvents s.params).take (2 * j + 1) := by
  obtain ⟨l, hl⟩ := take_succ_resetSeq s.params j hj
  have hlen : ((resetSeq s.params).take (2 * j)).length = 2 * j := by
    rw [List.length_take, length_resetSeq]
    omega
  have hrun := runSteps_performs_set_fault s r ((resetSeq s.params).take (2 * j)) .rst l as hr
    (hl ▸ (List.take_prefix _ _).trans hmp) (waitsIn_take_resetSeq _ _)
    (by rw [answersTaken_take_resetSeq _ j hj, ha])
  rw [hlen] at hrun
  refine ⟨_, hrun, rfl, rfl, ?_, ?_⟩
  · exact pinsAfter_put s.pins .rst .unknown _ fun q l hq =>
      set_mem_resetSeq s.params q l (List.mem_of_mem_take hq)
  · have hev : (resetEvents s.params).take (2 * j + 1) =
        ((resetSeq s.params).take (2 * j)).map MicroOp.event ++ [.pinSet .rst l] := by
      rw [← map_event_resetSeq, ← List.map_take, hl, List.map_append]
      rfl
    change portTrace (s.trace ++ _ ++ [.pinSet .rst l] ++ [.resp _ _]) = _
    rw [hev, portTrace_append, portTrace_append, portTrace_append, portTrace_map_event,
      List.append_assoc, List.append_assoc]
    rfl

/-- A step inside the pulse train that ends the operation is a SET answered `fault`. -/
theorem resetSeq_step_ends (s t : State) (r : RunRec) (hr : s.run = .busy r)
    (hmp : r.mp.take 7 = resetSeq s.params) (hu : r.upc < 7) (h : step s = .next t)
    (hi : t.run = .idle) :
    r.upc % 2 = 0 ∧ s.answer = .fault ∧ t.result = ⟨.pinFault, .rst, stage r.op⟩ ∧
      t.pins = { s.pins with rst := .unknown } := by
  rcases step_busy_cases s t r hr h with ⟨m, hm, rfl⟩ | ⟨hend, -⟩
  · have hseq : (resetSeq s.params)[r.upc]? = some m := by
      rw [← hmp, List.getElem?_take_of_lt hu, hm]
    rcases getElem?_resetSeq_cases s.params r.upc m hseq with ⟨heven, l, rfl⟩ | ⟨-, rfl⟩
    · rcases pinSetOp_cases .rst l r s with ⟨-, ht⟩ | ⟨hfault, ht⟩
      · simp [ht] at hi
      · exact ⟨heven, hfault, by simp only [ht]; rfl, by simp only [ht]; rfl⟩
    · exact absurd hi (delayOp_run_ne_idle _ r s)
  · have hlen := congrArg List.length hmp
    rw [List.length_take, length_resetSeq] at hlen
    omega

/-- Settles O31: with the answers before it `ok` a `fault` meets the SET at index `2 j`, which aborts
the operation; and no other step inside the pulse train ends it. -/
theorem resetPulseTrainFaults : Obligations.ResetPulseTrainFaults := by
  unfold Obligations.ResetPulseTrainFaults
  refine ⟨?_, resetSeq_step_ends, rfl, rfl⟩
  intro s r j rest hr hu hmp hj ha
  exact resetSeq_faults_at s r j rest hr (resetSeq_prefix_drop s.params r hu hmp) hj ha

end Sys2Proof.Machine
end

section
/-! PROOFS. The Busy Synchronizer (43_busy_synchronizer.md): the two phases of POLL, and a busy wait
as any number of not-ready rounds of one read and one sleep, ended by a ready read (R144 to R147). -/

namespace Sys2Proof.Machine

/-! The effect of POLL on the operation in flight, phase by phase. -/

theorem exec_poll_busy (s : State) (r : RunRec) (hr : s.run = .busy r) :
    exec .poll s = .next (pollOp r s) :=
  inFlight_busy _ s r hr

theorem step_poll (s : State) (r : RunRec) (hr : s.run = .busy r)
    (hm : r.mp[r.upc]? = some .poll) : step s = .next (pollOp r s) :=
  (step_busy_micro s r .poll hr hm).trans (exec_poll_busy s r hr)

theorem pollOp_of_ready (r : RunRec) (s : State) (hp : r.pollPh = .read)
    (hl : s.level = s.cfg.readyLevel) :
    pollOp r s = ((s.emit .busyRead).takeLevel).advance { r with polls := 0 } := by
  simp [pollOp, hp, pollRead, s.ready_iff.2 hl]

theorem pollOp_of_notReady (r : RunRec) (s : State) (hp : r.pollPh = .read)
    (hl : s.level ≠ s.cfg.readyLevel) :
    pollOp r s = ((s.emit .busyRead).takeLevel).setRun
      (.busy { r with polls := r.polls + 1, pollPh := .sleep }) := by
  simp [pollOp, hp, pollRead, s.ready_iff, hl]

theorem boundReached_eq_false_iff (c : Cfg) (k : Nat) :
    boundReached c.maxPolls k = false ↔ belowBound c k := by
  rw [← Bool.not_eq_true, boundReached_iff]
  simp [belowBound]

theorem belowBound_of_none (c : Cfg) (k : Nat) (h : c.maxPolls = none) : belowBound c k := by
  simp [belowBound, h]

theorem belowBound_of_le (c : Cfg) (j k : Nat) (hjk : j ≤ k) (h : belowBound c k) :
    belowBound c j :=
  fun n hn => Nat.lt_of_le_of_lt hjk (h n hn)

theorem pollOp_of_sleep_belowBound (r : RunRec) (s : State) (hp : r.pollPh = .sleep)
    (hb : belowBound s.cfg r.polls) :
    pollOp r s =
      (s.emit (.delay s.cfg.pollRateMs)).setRun (.busy { r with pollPh := .read }) := by
  simp [pollOp, hp, pollSleep, (boundReached_eq_false_iff s.cfg r.polls).2 hb]

/-- Settles O21: POLL in flight is `pollOp`, whose read phase has the two clauses as its two
branches. -/
theorem pollReadsTheBusyPin : Obligations.PollReadsTheBusyPin := by
  unfold Obligations.PollReadsTheBusyPin
  intro s r hr hp
  rw [exec_poll_busy s r hr]
  constructor
  · intro hready
    rw [pollOp_of_ready r s hp hready]
    rfl
  · intro hnot
    rw [pollOp_of_notReady r s hp hnot]
    rfl

/-! How a step leaves the busy wait (R147). -/

theorem pollOp_advances (r q : RunRec) (s : State) (hq : (pollOp r s).run = .busy q)
    (hne : q.upc ≠ r.upc) :
    q.upc = r.upc + 1 ∧ r.pollPh = .read ∧ s.level = s.cfg.readyLevel := by
  rcases pollOp_cases r s with ⟨hp, hready, ht⟩ | ⟨-, -, ht⟩ | ⟨-, -, ht⟩ | ⟨-, -, ht⟩ <;>
    rw [ht] at hq
  · injection hq with hq
    exact ⟨by rw [← hq], hp, s.ready_iff.1 hready⟩
  · injection hq with hq
    exact absurd (by rw [← hq]) hne
  · cases hq
  · injection hq with hq
    exact absurd (by rw [← hq]) hne

theorem pollOp_ends (r : RunRec) (s : State) (hi : (pollOp r s).run = .idle) :
    (pollOp r s).result.kind = .timeout ∧ s.cfg.maxPolls ≠ none := by
  rcases pollOp_cases r s with ⟨-, -, ht⟩ | ⟨-, -, ht⟩ | ⟨-, hb, ht⟩ | ⟨-, -, ht⟩
  · simp [ht] at hi
  · simp [ht] at hi
  · obtain ⟨n, hn, -⟩ := (boundReached_iff _ _).1 hb
    exact ⟨by rw [ht]; rfl, by simp [hn]⟩
  · simp [ht] at hi

/-! One step of a busy wait that does not end the operation. -/

theorem step_poll_ready (s : State) (r : RunRec) (hr : s.run = .busy r)
    (hm : r.mp[r.upc]? = some .poll) (hp : r.pollPh = .read) (hl : s.level = s.cfg.readyLevel) :
    step s = .next (((s.emit .busyRead).takeLevel).advance { r with polls := 0 }) := by
  rw [step_poll s r hr hm, pollOp_of_ready r s hp hl]

theorem step_poll_notReady (s : State) (r : RunRec) (hr : s.run = .busy r)
    (hm : r.mp[r.upc]? = some .poll) (hp : r.pollPh = .read) (hl : s.level ≠ s.cfg.readyLevel) :
    step s = .next (((s.emit .busyRead).takeLevel).setRun
      (.busy { r with polls := r.polls + 1, pollPh := .sleep })) := by
  rw [step_poll s r hr hm, pollOp_of_notReady r s hp hl]

theorem step_poll_sleep (s : State) (r : RunRec) (hr : s.run = .busy r)
    (hm : r.mp[r.upc]? = some .poll) (hp : r.pollPh = .sleep) (hb : belowBound s.cfg r.polls) :
    step s = .next
      ((s.emit (.delay s.cfg.pollRateMs)).setRun (.busy { r with pollPh := .read })) := by
  rw [step_poll s r hr hm, pollOp_of_sleep_belowBound r s hp hb]

/-! Rounds of a busy wait that each read not ready and sleep (R144, R145). -/

/-- `s` after `k` such rounds of the operation `r`, none of them the last under the bound; `ls` are the
levels that are left. -/
def State.polled (s : State) (r : RunRec) (k : Nat) (ls : List Level) : State :=
  { s with
    run := .busy { r with polls := r.polls + k }
    trace := s.trace ++ (List.replicate k [Event.busyRead, .delay s.cfg.pollRateMs]).flatten
    env := { s.env with levels := ls, draws := s.env.draws + k } }

theorem State.polled_zero (s : State) (r : RunRec) (hr : s.run = .busy r) :
    s.polled r 0 s.env.levels = s := by
  cases s
  cases hr
  simp [State.polled]

theorem State.polled_add (s : State) (r : RunRec) (a b : Nat) (ls ls' : List Level) :
    (s.polled r a ls).polled { r with polls := r.polls + a } b ls' = s.polled r (a + b) ls' := by
  simp [State.polled, ← List.replicate_append_replicate, Nat.add_assoc]

theorem otherLevel_ne (l : Level) : otherLevel l ≠ l := by
  cases l <;> decide

/-- One round: the read answers not ready, the sleep finds the bound not reached. -/
theorem runSteps_round (s : State) (r : RunRec) (ls : List Level) (hr : s.run = .busy r)
    (hm : r.mp[r.upc]? = some .poll) (hp : r.pollPh = .read)
    (hb : belowBound s.cfg (r.polls + 1)) (hl : s.env.levels = otherLevel s.cfg.readyLevel :: ls) :
    runSteps 2 s = .next (s.polled r 1 ls) := by
  have hnot : s.level ≠ s.cfg.readyLevel := by
    rw [s.level_cons _ ls hl]
    exact otherLevel_ne _
  rw [runSteps_succ 1 s _ (step_poll_notReady s r hr hm hp hnot), runSteps_one _ _
    (step_poll_sleep (((s.emit .busyRead).takeLevel).setRun _)
      { r with polls := r.polls + 1, pollPh := .sleep } rfl hm rfl hb)]
  simp [State.setRun, State.takeLevel, State.emit, State.polled, hl, hp]

/-- Any number of not-ready answers below the bound leaves the wait where it was. -/
theorem runSteps_rounds (s : State) (r : RunRec) (k : Nat) (ls : List Level)
    (hr : s.run = .busy r) (hm : r.mp[r.upc]? = some .poll) (hp : r.pollPh = .read)
    (hb : belowBound s.cfg (r.polls + k))
    (hl : s.env.levels = List.replicate k (otherLevel s.cfg.readyLevel) ++ ls) :
    runSteps (2 * k) s = .next (s.polled r k ls) := by
  induction k generalizing s r with
  | zero =>
    have hl : s.env.levels = ls := hl
    rw [← hl, s.polled_zero r hr]
    rfl
  | succ k ih =>
    have hfirst : belowBound s.cfg (r.polls + 1) := belowBound_of_le _ _ _ (by omega) hb
    have hrest : belowBound s.cfg (r.polls + 1 + k) := belowBound_of_le _ _ _ (by omega) hb
    calc runSteps (2 * (k + 1)) s
      _ = runSteps (2 + 2 * k) s := by rw [Nat.mul_succ, Nat.add_comm]
      _ = runSteps (2 * k) (s.polled r 1 _) :=
        runSteps_add 2 (2 * k) s _ (runSteps_round s r _ hr hm hp hfirst hl)
      _ = .next ((s.polled r 1 _).polled { r with polls := r.polls + 1 } k ls) :=
        ih _ _ rfl hm hp hrest rfl
      _ = .next (s.polled r (k + 1) ls) := by rw [s.polled_add, Nat.add_comm 1 k]

/-- A ready answer after such rounds ends the wait: the next micro-operation follows, the count back
at 0 (R144, R146). -/
theorem runSteps_wait (s : State) (r : RunRec) (k : Nat) (ls : List Level)
    (hr : s.run = .busy r) (hm : r.mp[r.upc]? = some .poll) (hp : r.pollPh = .read)
    (hb : belowBound s.cfg (r.polls + k))
    (hl : s.env.levels =
      List.replicate k (otherLevel s.cfg.readyLevel) ++ s.cfg.readyLevel :: ls) :
    runSteps (2 * k + 1) s =
      .next ((((s.polled r k (s.cfg.readyLevel :: ls)).emit .busyRead).takeLevel).advance
        { r with polls := 0 }) := by
  rw [runSteps_add (2 * k) 1 s _ (runSteps_rounds s r k _ hr hm hp hb hl)]
  exact runSteps_one _ _ (step_poll_ready _ { r with polls := r.polls + k } rfl hm hp
    (State.level_cons _ _ ls rfl))

/-- Settles O39: POLL leaves the wait by its ready read or by its timeout, which needs a bound; without
one any number of not-ready rounds is below it, and a ready read ends them. -/
theorem busyWaitNeverReturnsWhileNotReady : Obligations.BusyWaitNeverReturnsWhileNotReady := by
  unfold Obligations.BusyWaitNeverReturnsWhileNotReady
  refine ⟨?_, ?_, ?_, ?_⟩
  · intro s t r q hr hm h hq hne
    rw [step_poll s r hr hm] at h
    injection h with h
    exact pollOp_advances r q s (h ▸ hq) hne
  · intro s t r hr hm h hi
    rw [step_poll s r hr hm] at h
    injection h with h
    subst h
    exact pollOp_ends r s hi
  · intro s r k ls hr hm hp hnone hl
    exact ⟨_, runSteps_rounds s r k ls hr hm hp (belowBound_of_none _ _ hnone) hl,
      ⟨_, rfl⟩, rfl, rfl, rfl, rfl⟩
  · intro s r k ls hr hm hp hnone hl
    exact ⟨_, runSteps_wait s r k ls hr hm hp (belowBound_of_none _ _ hnone) hl,
      rfl, rfl, rfl, rfl⟩

end Sys2Proof.Machine
end

section
/-! PROOFS. Faults (60_exceptions.md): a faulted event is the last port event of its operation, and
within an operation the micro-program is never restarted (R206, R217). -/

namespace Sys2Proof.Machine

/-- What is in flight in `t`, if anything, is where the operation `r` was or one micro-operation
further (R25). -/
def StandsOrAdvances (r : RunRec) (t : State) : Prop :=
  ∀ q, t.run = .busy q → q.upc = r.upc ∨ q.upc = r.upc + 1

theorem standsOrAdvances_of_idle (r : RunRec) (t : State) (h : t.run = .idle) :
    StandsOrAdvances r t := by
  intro q hq
  rw [h] at hq
  cases hq

theorem standsOrAdvances_advance (r : RunRec) (u : State) : StandsOrAdvances r (u.advance r) := by
  intro q hq
  cases hq
  exact .inr rfl

theorem pinSetOp_standsOrAdvances (p : Pin) (l : Level) (r : RunRec) (s : State) :
    StandsOrAdvances r (pinSetOp p l r s) := by
  rcases pinSetOp_cases p l r s with ⟨-, ht⟩ | ⟨-, ht⟩ <;> rw [ht]
  · exact standsOrAdvances_advance r _
  · exact standsOrAdvances_of_idle r _ rfl

theorem busWriteOp_standsOrAdvances (P : Payload) (r : RunRec) (s : State) :
    StandsOrAdvances r (busWriteOp P r s) := by
  rcases busWriteOp_cases P r s with ⟨-, ht⟩ | ⟨-, ht⟩ <;> rw [ht]
  · exact standsOrAdvances_advance r _
  · exact standsOrAdvances_of_idle r _ rfl

theorem pollOp_standsOrAdvances (r : RunRec) (s : State) : StandsOrAdvances r (pollOp r s) := by
  intro q hq
  by_cases hstands : q.upc = r.upc
  · exact .inl hstands
  · exact .inr (pollOp_advances r q s hq hstands).1

theorem step_standsOrAdvances (s t : State) (r : RunRec) (hr : s.run = .busy r)
    (h : step s = .next t) : StandsOrAdvances r t := by
  rcases step_busy_cases s t r hr h with ⟨m, -, rfl⟩ | ⟨-, rfl⟩
  · cases m with
    | set p l => exact pinSetOp_standsOrAdvances p l r s
    | xfer P => exact busWriteOp_standsOrAdvances P r s
    | dly n => exact standsOrAdvances_advance r _
    | poll => exact pollOp_standsOrAdvances r s
  · exact standsOrAdvances_of_idle r _ rfl

/-- A micro-operation answered `fault` emits its event and aborts the operation (R102, R103). -/
theorem step_fault (s t : State) (r : RunRec) (m : MicroOp) (hr : s.run = .busy r)
    (hm : r.mp[r.upc]? = some m) (ha : answersTaken [m] = 1) (hf : s.answer = .fault)
    (h : step s = .next t) :
    ∃ u f, u.trace = s.trace ++ [MicroOp.event m] ∧ t = State.abort u f r.op := by
  rw [step_busy_micro s r m hr hm] at h
  cases m with
  | set p l =>
    rw [MicroOp.instr, exec_set_busy p l s r hr, pinSetOp_of_fault p l r s hf] at h
    injection h with h
    exact ⟨_, _, rfl, h.symm⟩
  | xfer P =>
    rw [MicroOp.instr, exec_xfer_busy P s r hr, busWriteOp_of_fault P r s hf] at h
    injection h with h
    exact ⟨_, _, rfl, h.symm⟩
  | dly n | poll => cases ha

/-- Settles O55: a `fault` answer aborts the operation right after its event, and no step of an
operation in flight takes `UPC` back or leaves its micro-program. -/
theorem faultsAreNeverIgnored : Obligations.FaultsAreNeverIgnored := by
  unfold Obligations.FaultsAreNeverIgnored
  constructor
  · intro s t r m hr hm ha hf h
    obtain ⟨u, f, hu, rfl⟩ := step_fault s t r m hr hm ha hf h
    refine ⟨rfl, f.kind_ne_ok, ?_⟩
    rw [State.abort_trace, hu, List.append_assoc]
    rfl
  · intro s t r q hr h hq
    obtain ⟨hop, hmp⟩ := (step_busy_keeps s t r hr h).2 q hq
    exact ⟨hop, hmp, step_standsOrAdvances s t r hr h q hq⟩

end Sys2Proof.Machine
end

section
/-! PROOFS. The codec (30_encoding.md): what a command frame decodes to by its first byte (R71 to
R75), and the fields of the two bytes of a response frame (R76 to R80). -/

namespace Sys2Proof

/-! Command frames, by their first byte. -/

theorem zeroField_eq_zero_iff (b : Byte) : zeroField b = 0 ↔ b.toNat < 8 := by
  have hfield : (zeroField b).toNat = b.toNat / 8 % 32 := by
    rw [zeroField, BitVec.extractLsb'_toNat, Nat.shiftRight_eq_div_pow]
  have hb := b.isLt
  rw [← BitVec.toNat_inj, hfield]
  change b.toNat / 8 % 32 = 0 ↔ b.toNat < 8
  omega

/-- The byte `b` alone is the frame of the command `i`, of format H0 (R71, R72). -/
structure StandsAlone (b : Byte) (i : Instr) : Prop where
  lt_seven : b.toNat < 7
  ne_five : b.toNat ≠ 5
  channel : i.channel = .command
  wf : ∀ p, i.wf p = true
  encode : ∀ p, encode p i = some [b]

/-- R73: the first byte says whether the rest of a frame must be empty, is the operand of WRITE, or
belongs to a reserved code. -/
theorem decodeFrame_cons_cases (m : Nat) (b : Byte) (rest : List Byte) :
    (∃ i, StandsAlone b i ∧ decodeFrame m (b :: rest) = decodeH0 i rest) ∨
    (b = 0x05 ∧ decodeFrame m (b :: rest) = decodeHW m rest) ∨
    (b = 0x07 ∧ decodeFrame m (b :: rest) = .instr (.reserved07 rest)) ∨
    (8 ≤ b.toNat ∧ decodeFrame m (b :: rest) = .instr (.reservedHigh b rest)) := by
  by_cases hz : zeroField b = 0
  · have hlt := (zeroField_eq_zero_iff b).1 hz
    have hb : b = 0 ∨ b = 1 ∨ b = 2 ∨ b = 3 ∨ b = 4 ∨ b = 5 ∨ b = 6 ∨ b = 7 := by bv_omega
    rcases hb with rfl | rfl | rfl | rfl | rfl | rfl | rfl | rfl
    · exact .inl ⟨.stat, ⟨by decide, by decide, rfl, fun _ => rfl, fun _ => rfl⟩, rfl⟩
    · exact .inl ⟨.reset, ⟨by decide, by decide, rfl, fun _ => rfl, fun _ => rfl⟩, rfl⟩
    · exact .inl ⟨.waitBusy, ⟨by decide, by decide, rfl, fun _ => rfl, fun _ => rfl⟩, rfl⟩
    · exact .inl ⟨.powerOn, ⟨by decide, by decide, rfl, fun _ => rfl, fun _ => rfl⟩, rfl⟩
    · exact .inl ⟨.init, ⟨by decide, by decide, rfl, fun _ => rfl, fun _ => rfl⟩, rfl⟩
    · exact .inr (.inl ⟨rfl, rfl⟩)
    · exact .inl ⟨.sleep, ⟨by decide, by decide, rfl, fun _ => rfl, fun _ => rfl⟩, rfl⟩
    · exact .inr (.inr (.inl ⟨rfl, rfl⟩))
  · have hge : ¬ b.toNat < 8 := mt (zeroField_eq_zero_iff b).2 hz
    exact .inr (.inr (.inr ⟨Nat.not_lt.1 hge, if_neg hz⟩))

theorem decodeFrame_reservedHigh (m : Nat) (b : Byte) (rest : List Byte) (h : 8 ≤ b.toNat) :
    decodeFrame m (b :: rest) = .instr (.reservedHigh b rest) :=
  if_neg fun hz => absurd ((zeroField_eq_zero_iff b).1 hz) (Nat.not_lt.2 h)

theorem decodeFrame_write (m : Nat) (P : Payload) (h : P.length ≤ m) :
    decodeFrame m (frameHW P) = .instr (.write P) :=
  if_pos h

/-- Settles O2: the frame of each command begins with its own code, under which the decoder reads
back the operands. -/
theorem commandFramesRoundTrip : Obligations.CommandFramesRoundTrip := by
  unfold Obligations.CommandFramesRoundTrip
  intro p i F hc hwf he
  cases i with
  | stat | reset | waitBusy | powerOn | init | sleep | reserved07 rest =>
    injection he with he
    subst he
    rfl
  | write P =>
    injection he with he
    subst he
    exact decodeFrame_write _ P (of_decide_eq_true hwf)
  | reservedHigh b rest =>
    injection he with he
    subst he
    exact decodeFrame_reservedHigh _ b rest (of_decide_eq_true hwf)
  | resp _ _ _ _ | pon | drf | pof | dslp | set _ _ | xfer _ | dly _ | poll => cases hc

theorem decodeH0_eq_instr_iff (i j : Instr) (rest : List Byte) :
    decodeH0 i rest = .instr j ↔ rest = [] ∧ j = i := by
  cases rest <;> simp [decodeH0, eq_comm]

theorem decodeH0_eq_rejected_iff (i : Instr) (rest : List Byte) (e : DecodeError) :
    decodeH0 i rest = .rejected e ↔ e = .extraBytes ∧ rest ≠ [] := by
  cases rest <;> simp [decodeH0, eq_comm]

theorem decodeHW_eq_instr_iff (m : Nat) (rest : List Byte) (i : Instr) :
    decodeHW m rest = .instr i ↔ ∃ P : Payload, i = .write P ∧ rest = P.bytes ∧ P.length ≤ m := by
  constructor
  · intro h
    cases rest with
    | nil => cases h
    | cons sel par =>
      by_cases hl : par.length + 1 ≤ m
      · rw [decodeHW, if_pos hl] at h
        injection h with h
        exact ⟨⟨sel, par⟩, h.symm, rfl, hl⟩
      · rw [decodeHW, if_neg hl] at h
        cases h
  · rintro ⟨P, rfl, rfl, hl⟩
    exact if_pos hl

theorem decodeHW_eq_rejected_iff (m : Nat) (rest : List Byte) (e : DecodeError) :
    decodeHW m rest = .rejected e ↔
      (e = .emptyPayload ∧ rest = []) ∨ (e = .payloadTooLong ∧ m < rest.length ∧ rest ≠ []) := by
  cases rest with
  | nil => simp [decodeHW, eq_comm]
  | cons sel par =>
    by_cases hl : par.length + 1 ≤ m
    · simp [decodeHW, hl, Nat.not_lt.2 hl]
    · simp [decodeHW, hl, Nat.not_le.1 hl, eq_comm]

/-- Settles O3: in each of the four cases of the first byte the instruction is the one whose frame
it is. -/
theorem decodedFramesEncodeBack : Obligations.DecodedFramesEncodeBack := by
  unfold Obligations.DecodedFramesEncodeBack
  intro p F i h
  cases F with
  | nil => cases h
  | cons b rest =>
    rcases decodeFrame_cons_cases p.maxPayload b rest with
      ⟨j, hj, hd⟩ | ⟨rfl, hd⟩ | ⟨rfl, hd⟩ | ⟨hb, hd⟩ <;> rw [hd] at h
    · obtain ⟨rfl, rfl⟩ := (decodeH0_eq_instr_iff _ _ _).1 h
      exact ⟨hj.channel, hj.wf p, hj.encode p⟩
    · obtain ⟨P, rfl, rfl, hl⟩ := (decodeHW_eq_instr_iff _ _ _).1 h
      exact ⟨rfl, decide_eq_true hl, rfl⟩
    · injection h with h
      subst h
      exact ⟨rfl, rfl, rfl⟩
    · injection h with h
      subst h
      exact ⟨rfl, decide_eq_true hb, rfl⟩

/-- Which frames with a first byte the decoder turns away, and under which name (R73; log entry 14).
-/
theorem decodeFrame_cons_eq_rejected_iff (m : Nat) (b : Byte) (rest : List Byte) (e : DecodeError) :
    decodeFrame m (b :: rest) = .rejected e ↔
      (e = .extraBytes ∧ b.toNat < 7 ∧ b.toNat ≠ 5 ∧ rest ≠ []) ∨
      (e = .emptyPayload ∧ b = 0x05 ∧ rest = []) ∨
      (e = .payloadTooLong ∧ b = 0x05 ∧ m < rest.length ∧ rest ≠ []) := by
  rcases decodeFrame_cons_cases m b rest with
    ⟨j, hj, hd⟩ | ⟨rfl, hd⟩ | ⟨rfl, hd⟩ | ⟨hb, hd⟩ <;> rw [hd]
  · have hne : b ≠ 5#8 := fun h => hj.ne_five (by rw [h]; rfl)
    simp [decodeH0_eq_rejected_iff, hj.lt_seven, hj.ne_five, hne]
  · simp [decodeHW_eq_rejected_iff]
  · simp
  · have hne : b ≠ 5#8 := by rintro rfl; exact absurd hb (by decide)
    simp [hne, Nat.not_lt.2 (Nat.le_of_succ_le hb)]

/-- Settles O4: the four errors, read off the rejections of a frame with a first byte. -/
theorem malformedFramesAreNamed : Obligations.MalformedFramesAreNamed := by
  unfold Obligations.MalformedFramesAreNamed
  intro m F
  cases F with
  | nil => simp [decodeFrame]
  | cons b rest =>
    refine ⟨?_, ?_, ?_, ?_⟩ <;> rw [decodeFrame_cons_eq_rejected_iff]
    · constructor
      · rintro (⟨he, -⟩ | ⟨he, -⟩ | ⟨he, -⟩) <;> cases he
      · intro h
        cases h
    · constructor
      · rintro (⟨-, hlt, hne, hrest⟩ | ⟨he, -⟩ | ⟨he, -⟩)
        · obtain ⟨c, u, rfl⟩ := List.exists_cons_of_ne_nil hrest
          exact ⟨b, c, u, rfl, hlt, hne⟩
        · cases he
        · cases he
      · rintro ⟨b', c, u, hF, hlt, hne⟩
        injection hF with hb hrest
        subst hb hrest
        exact .inl ⟨rfl, hlt, hne, List.cons_ne_nil c u⟩
    · constructor
      · rintro (⟨he, -⟩ | ⟨-, rfl, rfl⟩ | ⟨he, -⟩)
        · cases he
        · rfl
        · cases he
      · intro hF
        injection hF with hb hrest
        exact .inr (.inl ⟨rfl, hb, hrest⟩)
    · constructor
      · rintro (⟨he, -⟩ | ⟨he, -⟩ | ⟨-, rfl, hlen, hrest⟩)
        · cases he
        · cases he
        · obtain ⟨c, u, rfl⟩ := List.exists_cons_of_ne_nil hrest
          exact ⟨c, u, rfl, hlen⟩
      · rintro ⟨c, u, hF, hlen⟩
        injection hF with hb hrest
        subst hrest
        exact .inr (.inr ⟨rfl, hb, hlen, List.cons_ne_nil c u⟩)

/-! Response frames, field by field. -/

section fields

variable (k : Kind) (l : Life) (t : PinTag) (st : Stage)

@[simp] theorem respByte0_kind : (respByte0 k l).extractLsb' 4 4 = kindCode k :=
  (BitVec.extractLsb'_append_eq_of_le (by decide)).trans BitVec.extractLsb'_append_eq_left

@[simp] theorem respByte0_zero : (respByte0 k l).extractLsb' 3 1 = 0 :=
  (BitVec.extractLsb'_append_eq_of_le (by decide)).trans BitVec.extractLsb'_append_eq_right

@[simp] theorem respByte0_life : (respByte0 k l).extractLsb' 0 3 = lifeCode l :=
  BitVec.extractLsb'_append_eq_right

@[simp] theorem respByte1_high : (respByte1 t st).extractLsb' 6 2 = 0 :=
  (BitVec.extractLsb'_append_eq_of_le (by decide)).trans
    ((BitVec.extractLsb'_append_eq_of_le (by decide)).trans BitVec.extractLsb'_append_eq_left)

@[simp] theorem respByte1_pin : (respByte1 t st).extractLsb' 4 2 = pinCode t :=
  (BitVec.extractLsb'_append_eq_of_le (by decide)).trans
    ((BitVec.extractLsb'_append_eq_of_le (by decide)).trans BitVec.extractLsb'_append_eq_right)

@[simp] theorem respByte1_zero : (respByte1 t st).extractLsb' 3 1 = 0 :=
  (BitVec.extractLsb'_append_eq_of_le (by decide)).trans BitVec.extractLsb'_append_eq_right

@[simp] theorem respByte1_stage : (respByte1 t st).extractLsb' 0 3 = stageCode st :=
  BitVec.extractLsb'_append_eq_right

end fields

/-- The fields of the first byte determine it where bit 3 is zero. -/
theorem eq_respByte0 (b : Byte) (k : Kind) (l : Life) (hk : b.extractLsb' 4 4 = kindCode k)
    (hz : b.extractLsb' 3 1 = 0) (hl : b.extractLsb' 0 3 = lifeCode l) : respByte0 k l = b := by
  calc respByte0 k l
    _ = b.extractLsb' 4 4 ++ b.extractLsb' 3 1 ++ b.extractLsb' 0 3 := by rw [hk, hz, hl]; rfl
    _ = b.extractLsb' 3 5 ++ b.extractLsb' 0 3 :=
      congrArg (· ++ b.extractLsb' 0 3) (BitVec.extractLsb'_append_extractLsb'_eq_extractLsb' rfl)
    _ = b.extractLsb' 0 8 := BitVec.extractLsb'_append_extractLsb'_eq_extractLsb' rfl
    _ = b := BitVec.extractLsb'_eq_self

/-- The fields of the second byte determine it where bits 7, 6 and 3 are zero. -/
theorem eq_respByte1 (b : Byte) (t : PinTag) (st : Stage) (hh : b.extractLsb' 6 2 = 0)
    (ht : b.extractLsb' 4 2 = pinCode t) (hz : b.extractLsb' 3 1 = 0)
    (hs : b.extractLsb' 0 3 = stageCode st) : respByte1 t st = b := by
  calc respByte1 t st
    _ = b.extractLsb' 6 2 ++ b.extractLsb' 4 2 ++ b.extractLsb' 3 1 ++ b.extractLsb' 0 3 := by
      rw [hh, ht, hz, hs]; rfl
    _ = b.extractLsb' 4 4 ++ b.extractLsb' 3 1 ++ b.extractLsb' 0 3 :=
      congrArg (· ++ b.extractLsb' 3 1 ++ b.extractLsb' 0 3)
        (BitVec.extractLsb'_append_extractLsb'_eq_extractLsb' rfl)
    _ = b.extractLsb' 3 5 ++ b.extractLsb' 0 3 :=
      congrArg (· ++ b.extractLsb' 0 3) (BitVec.extractLsb'_append_extractLsb'_eq_extractLsb' rfl)
    _ = b.extractLsb' 0 8 := BitVec.extractLsb'_append_extractLsb'_eq_extractLsb' rfl
    _ = b := BitVec.extractLsb'_eq_self

theorem kindOf_eq_some_iff (c : BitVec 4) (k : Kind) : kindOf c = some k ↔ c = kindCode k := by
  revert c
  cases k <;> decide

theorem lifeOf_eq_some_iff (c : BitVec 3) (l : Life) : lifeOf c = some l ↔ c = lifeCode l := by
  revert c
  cases l <;> decide

theorem stageOf_eq_some_iff (c : BitVec 3) (st : Stage) :
    stageOf c = some st ↔ c = stageCode st := by
  revert c
  cases st <;> decide

theorem pinOf_eq_iff (c : BitVec 2) (t : PinTag) : pinOf c = t ↔ c = pinCode t := by
  revert c
  cases t <;> decide

theorem decodeResp_respBytes (k : Kind) (l : Life) (t : PinTag) (st : Stage) :
    decodeResp [respByte0 k l, respByte1 t st] = some (.resp k l t st) := by
  simp [decodeResp, (kindOf_eq_some_iff _ k).2 rfl, (lifeOf_eq_some_iff _ l).2 rfl,
    (stageOf_eq_some_iff _ st).2 rfl, (pinOf_eq_iff _ t).2 rfl]

/-- What decodes as a response is the two bytes of its fields (R76, R77 to R80). -/
theorem decodeResp_eq_some (F : Frame) (i : Instr) (h : decodeResp F = some i) :
    ∃ k l t st, i = .resp k l t st ∧ F = [respByte0 k l, respByte1 t st] := by
  unfold decodeResp at h
  split at h
  case h_2 => cases h
  case h_1 b0 b1 =>
    split at h
    case isFalse => cases h
    case isTrue hz =>
      obtain ⟨hz0, hz1, hh⟩ := hz
      split at h
      case h_2 => cases h
      case h_1 k l st hk hl hs =>
        injection h with h
        rw [kindOf_eq_some_iff] at hk
        rw [lifeOf_eq_some_iff] at hl
        rw [stageOf_eq_some_iff] at hs
        have ht := (pinOf_eq_iff (b1.extractLsb' 4 2) _).1 rfl
        exact ⟨k, l, _, st, h.symm,
          by rw [eq_respByte0 b0 k l hk hz0 hl, eq_respByte1 b1 _ st hh ht hz1 hs]⟩

theorem Payload.bytes_inj (P Q : Payload) : P.bytes = Q.bytes ↔ P = Q := by
  cases P
  cases Q
  simp [Payload.bytes]

/-- A payload the decoder names has the bytes of the payload it names (R82). -/
theorem decodePanel_eq_some (p : Params) (F : Frame) (i : Instr) (h : decodePanel p F = some i) :
    i.channel = .panel ∧ encode p i = some F := by
  have named (j : Instr) (G : Frame) (hc : j.channel = .panel) (he : encode p j = some G)
      (hF : F = G) (hj : some j = some i) : i.channel = .panel ∧ encode p i = some F := by
    injection hj with hj
    rw [← hj, hF]
    exact ⟨hc, he⟩
  unfold decodePanel at h
  split at h
  · exact named .dslp _ rfl rfl ‹_› h
  · split at h
    · exact named .drf _ rfl rfl ‹_› h
    · split at h
      · exact named .pof _ rfl rfl ‹_› h
      · split at h
        · exact named .pon _ rfl rfl ‹_› h
        · cases h

/-- Where the four fixed payloads differ each is named (R82). -/
theorem decodePanel_encode (p : Params) (i : Instr) (F : Frame)
    (hd : [p.dslpPayload, drfPayload p, pofPayload p, ponPayload p].Nodup)
    (hc : i.channel = .panel) (he : encode p i = some F) : decodePanel p F = some i := by
  obtain ⟨⟨h1, h2, h3⟩, ⟨h4, h5⟩, h6⟩ :
      (p.dslpPayload ≠ drfPayload p ∧ p.dslpPayload ≠ pofPayload p ∧ p.dslpPayload ≠ ponPayload p) ∧
      (drfPayload p ≠ pofPayload p ∧ drfPayload p ≠ ponPayload p) ∧
      pofPayload p ≠ ponPayload p := by simpa using hd
  cases i with
  | pon | drf | pof | dslp =>
    injection he with he
    subst he
    simp [decodePanel, Payload.bytes_inj, h1.symm, h2.symm, h3.symm, h4.symm, h5.symm, h6.symm]
  | stat | reset | waitBusy | powerOn | init | write _ | sleep | reserved07 _ | reservedHigh _ _
  | resp _ _ _ _ | set _ _ | xfer _ | dly _ | poll => cases hc

/-- Settles O5: a response is determined by its fields and they by it; a panel payload by its bytes.
-/
theorem responsesAndPayloadsRoundTrip : Obligations.ResponsesAndPayloadsRoundTrip := by
  unfold Obligations.ResponsesAndPayloadsRoundTrip
  refine ⟨?_, ?_, decodePanel_eq_some, decodePanel_encode⟩
  · intro p k l t st F he
    injection he with he
    rw [← he, decodeResp_respBytes]
  · intro p F i h
    obtain ⟨k, l, t, st, rfl, rfl⟩ := decodeResp_eq_some F i h
    exact ⟨rfl, rfl⟩

/-- Settles O1: each frame and payload is evaluated by its decoder. -/
theorem writtenOutFramesDecode : Obligations.WrittenOutFramesDecode := by
  unfold Obligations.WrittenOutFramesDecode
  decide

theorem respByte0_toNat (k : Kind) (l : Life) :
    (respByte0 k l).toNat = 16 * (kindCode k).toNat + (lifeCode l).toNat := by
  rw [respByte0, BitVec.toNat_append, BitVec.toNat_append,
    ← Nat.shiftLeft_add_eq_or_of_lt (lifeCode l).isLt, ← Nat.shiftLeft_add_eq_or_of_lt (0#1).isLt]
  simp only [Nat.shiftLeft_eq, BitVec.toNat_zero]
  omega

theorem respByte1_toNat (t : PinTag) (st : Stage) :
    (respByte1 t st).toNat = 16 * (pinCode t).toNat + (stageCode st).toNat := by
  rw [respByte1, BitVec.toNat_append, BitVec.toNat_append, BitVec.toNat_append,
    ← Nat.shiftLeft_add_eq_or_of_lt (stageCode st).isLt,
    ← Nat.shiftLeft_add_eq_or_of_lt (0#1).isLt, ← Nat.shiftLeft_add_eq_or_of_lt (pinCode t).isLt]
  simp only [Nat.shiftLeft_eq, BitVec.toNat_zero]
  omega

open Machine in
/-- Settles O24: the row sends the two bytes of its fields, whose bits do not overlap. -/
theorem respGoesToTheHost : Obligations.RespGoesToTheHost := by
  unfold Obligations.RespGoesToTheHost
  intro s k l p st
  exact ⟨respByte0 k l, respByte1 p st, rfl, respByte0_toNat k l, respByte1_toNat p st⟩

end Sys2Proof
end

section
/-! PROOFS. One call of the Bus Port per micro step (40_microengine.md R100), and what follows from
it: the frames of the instructions, who writes `LIFE` and `PINS`, and how frames are held and
answered. -/

namespace Sys2Proof.Machine

/-- How many answers of the environment an event takes (R10): a delay has none. -/
def Event.draws : Event → Nat
  | .pinSet _ _ => 1
  | .busWrite _ => 1
  | .busyRead => 1
  | .delay _ => 0
  | .cmd _ => 1
  | .resp _ _ => 1

/-- `u` is `s` after the port event `e` and its answer, before the sequencer acts on it. -/
structure PortCalled (s u : State) (e : Event) : Prop where
  isPort : e.isPort = true
  cfg : u.cfg = s.cfg
  params : u.params = s.params
  life : u.life = s.life
  result : u.result = s.result
  frames : u.env.frames = s.env.frames
  trace : u.trace = s.trace ++ [e]
  draws : u.env.draws = s.env.draws + e.draws
  pins : ∀ q, (∀ l, e ≠ .pinSet q l) → u.pins.get q = s.pins.get q

/-- From `u` the operation `r` stays in flight, with its micro-program, or is aborted, where a pin
fault names its pin (R206). -/
def GoesOnOrAborts (r : RunRec) (u t : State) : Prop :=
  (∃ q : RunRec, t = u.setRun (.busy q) ∧ q.op = r.op ∧ q.mp = r.mp) ∨
    ∃ f, f ≠ .pinFault .noPin ∧ t = u.abort f r.op

theorem portCalled_pinSet (s : State) (p : Pin) (l : Level) (x : Latch) :
    PortCalled s ((s.emit (.pinSet p l)).takeAnswer.setPin p x) (.pinSet p l) where
  isPort := rfl
  cfg := rfl
  params := rfl
  life := rfl
  result := rfl
  frames := rfl
  trace := rfl
  draws := rfl
  pins q hq := by
    have hne : q ≠ p := fun h => hq l (by rw [h])
    simp [hne]

theorem portCalled_busWrite (s : State) (P : Payload) :
    PortCalled s (s.emit (.busWrite P)).takeAnswer (.busWrite P) :=
  ⟨rfl, rfl, rfl, rfl, rfl, rfl, rfl, rfl, fun _ _ => rfl⟩

theorem portCalled_busyRead (s : State) : PortCalled s (s.emit .busyRead).takeLevel .busyRead :=
  ⟨rfl, rfl, rfl, rfl, rfl, rfl, rfl, rfl, fun _ _ => rfl⟩

theorem portCalled_delay (s : State) (n : Nat) : PortCalled s (s.emit (.delay n)) (.delay n) :=
  ⟨rfl, rfl, rfl, rfl, rfl, rfl, rfl, rfl, fun _ _ => rfl⟩

theorem pinTag_ne_noPin (p : Pin) : pinTag p ≠ .noPin := by
  cases p <;> simp [pinTag]

theorem pinSetOp_calls (p : Pin) (l : Level) (r : RunRec) (s : State) :
    ∃ u, PortCalled s u (.pinSet p l) ∧ GoesOnOrAborts r u (pinSetOp p l r s) := by
  rcases pinSetOp_cases p l r s with ⟨-, ht⟩ | ⟨-, ht⟩ <;> rw [ht]
  · exact ⟨_, portCalled_pinSet s p l _, .inl ⟨_, rfl, rfl, rfl⟩⟩
  · exact ⟨_, portCalled_pinSet s p l _, .inr ⟨_, by simp [pinTag_ne_noPin], rfl⟩⟩

theorem busWriteOp_calls (P : Payload) (r : RunRec) (s : State) :
    ∃ u, PortCalled s u (.busWrite P) ∧ GoesOnOrAborts r u (busWriteOp P r s) := by
  refine ⟨_, portCalled_busWrite s P, ?_⟩
  rcases busWriteOp_cases P r s with ⟨-, ht⟩ | ⟨-, ht⟩ <;> rw [ht]
  · exact .inl ⟨_, rfl, rfl, rfl⟩
  · exact .inr ⟨_, by simp, rfl⟩

theorem pollOp_calls (r : RunRec) (s : State) :
    ∃ u e, PortCalled s u e ∧ (∀ q l, e ≠ .pinSet q l) ∧ GoesOnOrAborts r u (pollOp r s) := by
  rcases pollOp_cases r s with ⟨-, -, ht⟩ | ⟨-, -, ht⟩ | ⟨-, -, ht⟩ | ⟨-, -, ht⟩ <;> rw [ht]
  · exact ⟨_, _, portCalled_busyRead s, by simp, .inl ⟨_, rfl, rfl, rfl⟩⟩
  · exact ⟨_, _, portCalled_busyRead s, by simp, .inl ⟨_, rfl, rfl, rfl⟩⟩
  · exact ⟨_, _, portCalled_delay s _, by simp, .inr ⟨_, by simp, rfl⟩⟩
  · exact ⟨_, _, portCalled_delay s _, by simp, .inl ⟨_, rfl, rfl, rfl⟩⟩

/-- A micro-operation or panel payload makes one call of the Bus Port, a `PinSet` only if it is that
SET (R100, R102 to R104, R144, R145). -/
theorem exec_port_calls (i : Instr) (s t : State)
    (hc : i.channel = .internal ∨ i.channel = .panel) (h : exec i s = .next t) :
    ∃ r u e, s.run = .busy r ∧ PortCalled s u e ∧ (∀ q l, e = .pinSet q l → i = .set q l) ∧
      GoesOnOrAborts r u t := by
  obtain ⟨r, hr, ⟨p, l, rfl, rfl⟩ | ⟨P, rfl⟩ | ⟨n, rfl, rfl⟩ | ⟨rfl, rfl⟩⟩ :=
    exec_port_cases i s t hc h
  · obtain ⟨u, hu, ht⟩ := pinSetOp_calls p l r s
    exact ⟨r, u, _, hr, hu, by simp, ht⟩
  · obtain ⟨u, hu, ht⟩ := busWriteOp_calls P r s
    exact ⟨r, u, _, hr, hu, by simp, ht⟩
  · exact ⟨r, _, _, hr, portCalled_delay s n, by simp, .inl ⟨_, rfl, rfl, rfl⟩⟩
  · obtain ⟨u, e, hu, he, ht⟩ := pollOp_calls r s
    exact ⟨r, u, e, hr, hu, fun q l hq => absurd hq (he q l), ht⟩

theorem MicroOp.channel_instr (m : MicroOp) : m.instr.channel = .internal := by
  cases m <;> rfl

/-- A step of an operation in flight is one call of the Bus Port for the micro-operation at `UPC`,
or the complete step (R100). -/
theorem step_busy_calls (s t : State) (r : RunRec) (hr : s.run = .busy r) (h : step s = .next t) :
    (r.upc < r.mp.length ∧ ∃ m u e, r.mp[r.upc]? = some m ∧ PortCalled s u e ∧
      (∀ q l, e = .pinSet q l → m = .set q l) ∧ GoesOnOrAborts r u t) ∨
    (r.upc = r.mp.length ∧ t = s.complete r.op) := by
  rcases step_busy_cases s t r hr h with ⟨m, hm, -⟩ | hend
  · rw [step_busy_micro s r m hr hm] at h
    obtain ⟨r', u, e, hr', hu, he, ht⟩ := exec_port_calls _ s t (.inl (MicroOp.channel_instr m)) h
    obtain rfl : r' = r := by
      rw [hr] at hr'
      injection hr' with hr'
      exact hr'.symm
    refine .inl ⟨(List.getElem?_eq_some_iff.1 hm).1, m, u, e, hm, hu, fun q l hq => ?_, ht⟩
    have hset := he q l hq
    cases m with
    | set p k =>
      injection hset with hp hk
      rw [hp, hk]
    | xfer P | dly n | poll => cases hset
  · exact .inr hend

/-! Frames of the instructions (R102 to R104, R124, R144, R145). -/

/-- Settles O53: the one call of the port keeps all else, and then the operation goes on or is
aborted. -/
theorem microOperationsLeaveTheRestAlone : Obligations.MicroOperationsLeaveTheRestAlone := by
  unfold Obligations.MicroOperationsLeaveTheRestAlone
  intro i s t hc h
  obtain ⟨r, u, e, hr, hu, he, ht⟩ := exec_port_calls i s t hc h
  have hpins : ∀ q, (∀ l, i ≠ .set q l) → u.pins.get q = s.pins.get q :=
    fun q hq => hu.pins q fun l hl => hq l (he q l hl)
  rcases ht with ⟨q, rfl, hop, hmp⟩ | ⟨f, -, rfl⟩
  · exact ⟨hpins, hu.cfg, hu.params, hu.frames, r, hr, .inr ⟨q, rfl, hop, hmp, hu.life, hu.result⟩⟩
  · exact ⟨hpins, hu.cfg, hu.params, hu.frames, r, hr, .inl ⟨rfl, rfl, rfl⟩⟩

theorem lifeInFlight_ne (op : HostOp) (l : Life) (h : lifeInFlight op l ≠ l) :
    (∃ P, op = .write P) ∧ l = .initialized ∧ lifeInFlight op l = .writing := by
  cases op with
  | write P =>
    by_cases hl : l = .initialized
    · exact ⟨⟨P, rfl⟩, hl, if_pos hl⟩
    · exact absurd (if_neg hl) h
  | reset | waitBusy | powerOn | init | sleep => exact absurd rfl h

theorem portTrace_concat_resp (tr : List Event) (b0 b1 : Byte) :
    portTrace (tr ++ [.resp b0 b1]) = portTrace tr := by
  rw [portTrace_append]
  exact List.append_nil _

/-- Settles O52: idle, a command responds, is rejected or starts its operation; in flight, its frame
is held. -/
theorem commandsLeaveThePortAlone : Obligations.CommandsLeaveThePortAlone := by
  unfold Obligations.CommandsLeaveThePortAlone
  intro i s t hc h
  cases hr : s.run with
  | idle =>
    rcases exec_command_cases i s t hc hr h with ⟨-, rfl⟩ | ⟨k, st, -, rfl⟩ | ⟨op, -, rfl, hw⟩
    · exact ⟨fun _ => rfl, rfl, rfl, portTrace_concat_resp _ _ _, rfl, rfl, rfl,
        fun hne => absurd rfl hne, fun hne => absurd rfl hne⟩
    · exact ⟨fun _ => rfl, rfl, rfl, portTrace_concat_resp _ _ _, rfl, rfl, rfl,
        fun hne => absurd rfl hne, fun _ => ⟨rfl, hr, rfl⟩⟩
    · refine ⟨fun _ => rfl, rfl, rfl, rfl, rfl, rfl, rfl, fun hne => ?_, fun hne => absurd rfl hne⟩
      obtain ⟨⟨P, hP⟩, hl, hwriting⟩ := lifeInFlight_ne op s.life hne
      exact ⟨⟨P, (hw P hP).1⟩, hl, hwriting⟩
  | busy r =>
    obtain ⟨F, rfl⟩ := exec_command_busy i s t r hr hc h
    exact ⟨fun _ => rfl, rfl, rfl, rfl, rfl, rfl, rfl, fun hne => absurd rfl hne,
      fun hne => absurd rfl hne⟩

/-! Rules of the whole machine. -/

/-- Settles O54: the micro step is one call of the port; going on leaves the operation in flight,
and the abort adds the response. -/
theorem oneEventPerMicroStep : Obligations.OneEventPerMicroStep := by
  unfold Obligations.OneEventPerMicroStep
  intro s t r hr hlt h
  rcases step_busy_calls s t r hr h with ⟨-, m, u, e, -, hu, -, ht⟩ | ⟨hend, -⟩
  · refine ⟨e, hu.isPort, ?_, ?_⟩
    · rcases ht with ⟨q, rfl, -, -⟩ | ⟨f, -, rfl⟩
      · exact .inl ⟨hu.trace, by simp⟩
      · exact .inr ⟨_, _, by rw [State.abort_trace, hu.trace, List.append_assoc]; rfl, rfl⟩
    · have hdraws : t.env.draws = u.env.draws := by
        rcases ht with ⟨q, rfl, -, -⟩ | ⟨f, -, rfl⟩ <;> rfl
      rw [hdraws, hu.draws]
      cases e <;> rfl
  · omega

theorem step_busy_frames (s t : State) (r : RunRec) (hr : s.run = .busy r)
    (h : step s = .next t) : t.env.frames = s.env.frames := by
  rcases step_busy_calls s t r hr h with
    ⟨-, m, u, e, -, hu, -, ⟨q, rfl, -, -⟩ | ⟨f, -, rfl⟩⟩ | ⟨-, rfl⟩
  · exact hu.frames
  · exact hu.frames
  · rfl

/-- A command presented while an operation is in flight is held as its own frame (R180). -/
theorem exec_command_holds (i : Instr) (s : State) (r : RunRec) (F : Frame) (hr : s.run = .busy r)
    (hc : i.channel = .command) (he : encode s.params i = some F) :
    exec i s = .next (s.holdFrame F) := by
  cases i with
  | stat | reset | waitBusy | powerOn | init | write _ | sleep | reserved07 _ | reservedHigh _ _ =>
    injection he with he
    rw [← he]
    exact congrArg Host.Outcome.next (whenIdle_busy _ _ s r hr)
  | resp _ _ _ _ | pon | drf | pof | dslp | set _ _ | xfer _ | dly _ | poll => cases hc

/-- Settles O7: without a frame the idle sequencer waits, no port call touches the frames, and a
command in flight is held. -/
theorem framesAreHeldWhileBusy : Obligations.FramesAreHeldWhileBusy := by
  unfold Obligations.FramesAreHeldWhileBusy
  exact ⟨step_idle_nil, step_busy_frames, fun s r i F => exec_command_holds i s r F⟩

/-- Settles O56: a port call keeps `LIFE`, so what writes it is a start, the complete step or the
abort. -/
theorem lifeHasThreeWriters : Obligations.LifeHasThreeWriters := by
  unfold Obligations.LifeHasThreeWriters
  intro s t h hne
  cases hr : s.run with
  | idle =>
    rcases step_idle_cases s t hr h with
      ⟨-, rfl⟩ | ⟨F, rest, -, rfl | ⟨k, st, -, rfl⟩ | ⟨op, -, rfl, -⟩⟩
    · exact absurd rfl hne
    · exact absurd rfl hne
    · exact absurd rfl hne
    · obtain ⟨⟨P, hP⟩, hl, hwriting⟩ := lifeInFlight_ne op s.life hne
      exact .inl ⟨rfl, hl, hwriting, _, P, rfl, hP⟩
  | busy r =>
    rcases step_busy_calls s t r hr h with
      ⟨hlt, m, u, e, -, hu, -, ⟨q, rfl, -, -⟩ | ⟨f, -, rfl⟩⟩ | ⟨hend, rfl⟩
    · exact absurd hu.life hne
    · exact .inr (.inr ⟨r, rfl, hlt, rfl, rfl, f.kind_ne_ok⟩)
    · exact .inr (.inl ⟨r, rfl, hend, rfl, rfl⟩)

theorem step_idle_pins (s t : State) (hi : s.run = .idle) (h : step s = .next t) :
    t.pins = s.pins := by
  rcases step_idle_cases s t hi h with
    ⟨-, rfl⟩ | ⟨F, rest, -, rfl | ⟨k, st, -, rfl⟩ | ⟨op, -, rfl, -⟩⟩ <;> rfl

/-- A step that changes a latch performs a SET of its pin. -/
theorem step_pin_changed (s t : State) (q : Pin) (h : step s = .next t)
    (hne : t.pins.get q ≠ s.pins.get q) :
    ∃ r l, s.run = .busy r ∧ r.mp[r.upc]? = some (.set q l) := by
  cases hr : s.run with
  | idle => exact absurd (by rw [step_idle_pins s t hr h]) hne
  | busy r =>
    rcases step_busy_calls s t r hr h with ⟨-, m, u, e, hm, hu, he, ht⟩ | ⟨-, rfl⟩
    · have hpins : t.pins = u.pins := by rcases ht with ⟨q, rfl, -, -⟩ | ⟨f, -, rfl⟩ <;> rfl
      by_cases hset : ∃ l, e = .pinSet q l
      · obtain ⟨l, rfl⟩ := hset
        obtain rfl := he q l rfl
        exact ⟨r, l, rfl, hm⟩
      · rw [not_exists] at hset
        exact absurd (by rw [hpins, hu.pins q hset]) hne
    · exact absurd rfl hne

/-- Settles O57: the SET that changed the latch put the level there, or `X` on a fault. -/
theorem pinsHaveOneWriter : Obligations.PinsHaveOneWriter := by
  unfold Obligations.PinsHaveOneWriter
  intro s t q h hne
  obtain ⟨r, l, hr, hm⟩ := step_pin_changed s t q h hne
  rw [step_busy_micro s r _ hr hm, MicroOp.instr, exec_set_busy q l s r hr] at h
  injection h with h
  refine ⟨r, l, hr, hm, ?_⟩
  rcases pinSetOp_cases q l r s with ⟨ha, ht⟩ | ⟨ha, ht⟩
  · exact .inl ⟨ha, by rw [← h, ht]; simp⟩
  · exact .inr ⟨ha, by rw [← h, ht]; simp⟩

theorem Event.not_isCmd_isResp_of_isPort (e : Event) (h : e.isPort = true) :
    e.isCmd = false ∧ e.isResp = false := by
  cases e with
  | pinSet _ _ | busWrite _ | busyRead | delay _ => exact ⟨rfl, rfl⟩
  | cmd _ | resp _ _ => cases h

/-- Settles O58: the step counts one frame taken where it takes one, and one answered where it
responds; and what changes the result responds at once. -/
theorem everyCommandIsAnsweredOnce : Obligations.EveryCommandIsAnsweredOnce := by
  unfold Obligations.EveryCommandIsAnsweredOnce
  intro s t h
  cases hr : s.run with
  | idle =>
    rcases step_idle_cases s t hr h with
      ⟨-, rfl⟩ | ⟨F, rest, -, rfl | ⟨k, st, -, rfl⟩ | ⟨op, -, rfl, -⟩⟩
    · exact ⟨by rw [hr], fun hne => absurd rfl hne⟩
    · refine ⟨?_, fun hne => absurd rfl hne⟩
      simp [List.filter_cons, hr, Run.count]
      omega
    · refine ⟨?_, fun _ => ⟨hr, by rw [State.reject_trace, List.getLast?_concat]; rfl⟩⟩
      simp [List.filter_cons, hr, Run.count]
      omega
    · refine ⟨?_, fun hne => absurd rfl hne⟩
      simp [List.filter_cons, Run.count]
      omega
  | busy r =>
    rcases step_busy_calls s t r hr h with ⟨-, m, u, e, -, hu, -, ht⟩ | ⟨-, rfl⟩
    · obtain ⟨hcmd, hresp⟩ := e.not_isCmd_isResp_of_isPort hu.isPort
      rcases ht with ⟨q, rfl, -, -⟩ | ⟨f, -, rfl⟩
      · exact ⟨by simp [hu.trace, hcmd, hresp, Run.count], fun hne => absurd hu.result hne⟩
      · refine ⟨?_, fun _ => ⟨rfl, by rw [State.abort_trace, List.getLast?_concat]; rfl⟩⟩
        simp [List.filter_cons, hu.trace, hcmd, hresp, Run.count]
        omega
    · refine ⟨?_, fun _ => ⟨rfl, by rw [State.complete_trace, List.getLast?_concat]; rfl⟩⟩
      simp [List.filter_cons, Run.count]
      omega

end Sys2Proof.Machine
end

section
/-! PROOFS. The invariant of the reachable states (10_state.md R33): it holds after construction,
every step keeps it, and under it no step is missing. -/

namespace Sys2Proof.Machine

theorem lastSet_append (p : Pin) (a b : List MicroOp) :
    lastSet p (a ++ b) = (lastSet p b).or (lastSet p a) := by
  induction a with
  | nil => simp [lastSet]
  | cons m t ih =>
    cases m with
    | set q l =>
      simp only [List.cons_append, lastSet, ih]
      split
      · rw [Option.or_assoc]
      · rfl
    | xfer P | dly n | poll => exact ih

theorem take_succ_eq_concat {α : Type} {l : List α} {k : Nat} {m : α} (h : l[k]? = some m) :
    l.take (k + 1) = l.take k ++ [m] := by
  rw [List.take_add_one, h]
  rfl

/-! Parts of the invariant. -/

theorem pinsTrack_start (ps : Pins) (r : RunRec) (hu : r.upc = 0) : PinsTrack ps r := by
  intro p l h
  rw [hu] at h
  cases h

/-- R28: after the micro-operation at `UPC` every latch is still at the level its last SET drove. -/
theorem pinsTrack_advance (ps : Pins) (r q : RunRec) (m : MicroOp) (h : PinsTrack ps r)
    (hm : r.mp[r.upc]? = some m) (hmp : q.mp = r.mp) (hupc : q.upc = r.upc + 1) :
    PinsTrack (pinsAfter ps [m]) q := by
  intro p l hl
  rw [hmp, hupc, take_succ_eq_concat hm, lastSet_concat] at hl
  cases m with
  | set p' l' =>
    by_cases hp : p' = p
    · simp only [hp, if_true, Option.some.injEq] at hl
      simp [pinsAfter, hp, hl]
    · simp only [hp, if_false] at hl
      simpa [pinsAfter, Ne.symm hp] using h p l hl
  | xfer P | dly n | poll => exact h p l hl

theorem pollOk_of_fresh (c : Cfg) (p : Params) (r : RunRec) (hwf : p.WellFormed c)
    (hph : r.pollPh = .read) (hpolls : r.polls = 0) : PollOk c r := by
  obtain ⟨-, -, -, -, -, hbound, -⟩ := hwf
  refine ⟨fun hs => ?_, fun _ => hpolls, fun n hn => ?_⟩
  · rw [hph] at hs
    cases hs
  · have hpos : 1 ≤ n := hbound n hn
    rw [hpolls]
    exact ⟨Nat.zero_le n, fun _ => hpos⟩

theorem fresh_of_not_poll (c : Cfg) (r : RunRec) (h : PollOk c r)
    (hm : r.mp[r.upc]? ≠ some .poll) : r.pollPh = .read ∧ r.polls = 0 := by
  obtain ⟨hsleep, hzero, -⟩ := h
  refine ⟨?_, hzero hm⟩
  cases hph : r.pollPh with
  | read => rfl
  | sleep => exact absurd (hsleep hph) hm

/-- `t` has the configuration, `LIFE` and `RESULT` of `s`, and its latches are those of `s` after
the micro-operations `ops`. -/
structure PerformedOn (ops : List MicroOp) (s t : State) : Prop where
  cfg : t.cfg = s.cfg
  params : t.params = s.params
  life : t.life = s.life
  result : t.result = s.result
  pins : t.pins = pinsAfter s.pins ops

/-- R33 (a): past the micro-operation at `UPC`, with a new busy wait not begun, the operation in
flight is in order. -/
theorem runOk_advance (s t : State) (r q : RunRec) (m : MicroOp) (hwf : s.params.WellFormed s.cfg)
    (h : RunOk s r) (hm : r.mp[r.upc]? = some m) (ht : PerformedOn [m] s t)
    (hop : q.op = r.op) (hmp : q.mp = r.mp) (hupc : q.upc = r.upc + 1) (hph : q.pollPh = .read)
    (hpolls : q.polls = 0) : RunOk t q := by
  obtain ⟨hprog, -, hwriting, hlen, -, htrack⟩ := h
  refine ⟨?_, ?_, ?_, ?_, ?_, ?_⟩
  · rw [hmp, hprog, ht.params, hop]
  · rw [hmp, hupc]
    exact (List.getElem?_eq_some_iff.1 hm).1
  · rw [ht.life, hop]
    exact hwriting
  · rw [ht.params, hop]
    exact hlen
  · rw [ht.cfg]
    exact pollOk_of_fresh _ _ q hwf hph hpolls
  · rw [ht.pins]
    exact pinsTrack_advance s.pins r q m htrack hm hmp hupc

/-- Inside a busy wait the operation in flight stays in order if its count does. -/
theorem runOk_stay (s t : State) (r q : RunRec) (h : RunOk s r) (ht : PerformedOn [] s t)
    (hop : q.op = r.op) (hmp : q.mp = r.mp) (hupc : q.upc = r.upc) (hpoll : PollOk s.cfg q) :
    RunOk t q := by
  obtain ⟨hprog, hle, hwriting, hlen, -, htrack⟩ := h
  refine ⟨?_, ?_, ?_, ?_, ?_, ?_⟩
  · rw [hmp, hprog, ht.params, hop]
  · rw [hmp, hupc]
    exact hle
  · rw [ht.life, hop]
    exact hwriting
  · rw [ht.params, hop]
    exact hlen
  · rw [ht.cfg]
    exact hpoll
  · rw [ht.pins]
    intro p l hl
    rw [hmp, hupc] at hl
    exact htrack p l hl

theorem lifeInFlight_eq_writing (op : HostOp) (l : Life) (hl : l ≠ .writing)
    (h : lifeInFlight op l = .writing) : ∃ P, op = .write P :=
  (lifeInFlight_ne op l (by rw [h]; exact hl.symm)).1

theorem post_ne_writing (op : HostOp) (l : Life) (h : l = .writing → ∃ P, op = .write P) :
    post op l ≠ .writing := by
  cases op with
  | write P => by_cases hl : l = .writing <;> simp [post, hl]
  | waitBusy =>
    intro hl
    obtain ⟨P, hP⟩ := h hl
    cases hP
  | reset | powerOn | init | sleep => exact Life.noConfusion

/-! The invariant at each kind of step. -/

theorem inv_of_idle (t : State) (hi : t.run = .idle) (hwf : t.params.WellFormed t.cfg)
    (hres : t.result.kind = .pinFault ↔ t.result.pin ≠ .noPin) (hl : t.life ≠ .writing) :
    Inv t := by
  refine ⟨hwf, hres, fun _ => hl, fun r hr => ?_⟩
  rw [hi] at hr
  cases hr

theorem inv_of_busy (t : State) (q : RunRec) (hq : t.run = .busy q)
    (hwf : t.params.WellFormed t.cfg) (hres : t.result.kind = .pinFault ↔ t.result.pin ≠ .noPin)
    (hok : RunOk t q) : Inv t := by
  refine ⟨hwf, hres, fun hi => ?_, fun r hr => ?_⟩
  · rw [hq] at hi
    cases hi
  · rw [hq] at hr
    cases hr
    exact hok

theorem faultResult_pin (f : MicroFault) (op : HostOp) (hf : f ≠ .pinFault .noPin) :
    (faultResult f op).kind = .pinFault ↔ (faultResult f op).pin ≠ .noPin := by
  cases f with
  | busFault | timeout => simp [faultResult, MicroFault.kind, MicroFault.pin]
  | pinFault t => simpa [faultResult, MicroFault.kind, MicroFault.pin] using hf

theorem inv_abort (u : State) (f : MicroFault) (op : HostOp) (hwf : u.params.WellFormed u.cfg)
    (hf : f ≠ .pinFault .noPin) : Inv (u.abort f op) :=
  inv_of_idle _ rfl hwf (faultResult_pin f op hf) (by simp)

theorem inv_start (s : State) (op : HostOp) (hs : Inv s) (hi : s.run = .idle)
    (hlen : ∀ P, op = .write P → P.length ≤ s.params.maxPayload) : Inv (s.start op) := by
  obtain ⟨hwf, hres, hidle, -⟩ := hs
  have hwriting := lifeInFlight_eq_writing op s.life (hidle hi)
  exact inv_of_busy _ _ rfl hwf hres ⟨rfl, Nat.zero_le _, hwriting, hlen,
    pollOk_of_fresh _ _ _ hwf rfl rfl, pinsTrack_start _ _ rfl⟩

theorem inv_reject (s : State) (k : Kind) (st : Stage) (hs : Inv s) (hi : s.run = .idle)
    (hk : k = .precondition ∨ k = .illegalCommand) : Inv (s.reject k st) := by
  obtain ⟨hwf, -, hidle, -⟩ := hs
  refine inv_of_idle _ hi hwf ?_ (hidle hi)
  rcases hk with rfl | rfl <;> simp

/-- The invariant does not speak of the trace or of what the host presents. -/
theorem inv_takeFrame (s : State) (F : Frame) (rest : List Frame) (hs : Inv s) :
    Inv (s.takeFrame F rest) := hs

theorem inv_respond (s : State) (hs : Inv s) : Inv s.respond := hs

theorem inv_step_idle (s t : State) (hs : Inv s) (hi : s.run = .idle) (h : step s = .next t) :
    Inv t := by
  rcases step_idle_cases s t hi h with
    ⟨-, rfl⟩ | ⟨F, rest, -, rfl | ⟨k, st, hk, rfl⟩ | ⟨op, -, rfl, hlen⟩⟩
  · exact hs
  · exact inv_respond _ (inv_takeFrame s F rest hs)
  · exact inv_reject _ k st (inv_takeFrame s F rest hs) hi hk
  · exact inv_start _ op (inv_takeFrame s F rest hs) hi hlen

section inFlight

variable (s : State) (r : RunRec) (hs : Inv s) (hr : s.run = .busy r)

include hs hr

/-- A micro-operation other than POLL that goes on. -/
theorem inv_advance (t : State) (m : MicroOp) (hm : r.mp[r.upc]? = some m) (hne : m ≠ .poll)
    (ht : PerformedOn [m] s t) (hq : t.run = .busy { r with upc := r.upc + 1 }) : Inv t := by
  obtain ⟨hwf, hres, -, hrun⟩ := hs
  obtain ⟨hprog, hle, hwriting, hlen, hpoll, htrack⟩ := hrun r hr
  obtain ⟨hph, hpolls⟩ := fresh_of_not_poll s.cfg r hpoll (by rw [hm]; simpa using hne)
  refine inv_of_busy t _ hq (by rwa [ht.params, ht.cfg]) (by rwa [ht.result]) ?_
  exact runOk_advance s t r _ m hwf (hrun r hr) hm ht rfl rfl rfl hph hpolls

theorem inv_pinSetOp (p : Pin) (l : Level) (hm : r.mp[r.upc]? = some (.set p l)) :
    Inv (pinSetOp p l r s) := by
  rcases pinSetOp_cases p l r s with ⟨-, ht⟩ | ⟨-, ht⟩ <;> rw [ht]
  · exact inv_advance s r hs hr _ _ hm (by simp) ⟨rfl, rfl, rfl, rfl, rfl⟩ rfl
  · exact inv_abort _ _ _ hs.1 (by simp [pinTag_ne_noPin])

theorem inv_busWriteOp (P : Payload) (hm : r.mp[r.upc]? = some (.xfer P)) :
    Inv (busWriteOp P r s) := by
  rcases busWriteOp_cases P r s with ⟨-, ht⟩ | ⟨-, ht⟩ <;> rw [ht]
  · exact inv_advance s r hs hr _ _ hm (by simp) ⟨rfl, rfl, rfl, rfl, rfl⟩ rfl
  · exact inv_abort _ _ _ hs.1 (by simp)

theorem inv_delayOp (n : Nat) (hm : r.mp[r.upc]? = some (.dly n)) : Inv (delayOp n r s) :=
  inv_advance s r hs hr _ _ hm (by simp) ⟨rfl, rfl, rfl, rfl, rfl⟩ rfl

/-- R26, R145: the count of a busy wait reaches its bound at most at a sleep, which then aborts. -/
theorem inv_pollOp (hm : r.mp[r.upc]? = some .poll) : Inv (pollOp r s) := by
  obtain ⟨hwf, hres, -, hrun⟩ := hs
  have hok := hrun r hr
  obtain ⟨-, -, -, -, ⟨-, -, hbound⟩, -⟩ := hrun r hr
  rcases pollOp_cases r s with ⟨hph, -, ht⟩ | ⟨hph, -, ht⟩ | ⟨-, -, ht⟩ | ⟨hph, hb, ht⟩ <;> rw [ht]
  · refine inv_of_busy _ _ rfl hwf hres ?_
    exact runOk_advance s _ r _ .poll hwf hok hm ⟨rfl, rfl, rfl, rfl, rfl⟩ rfl rfl rfl hph rfl
  · refine inv_of_busy _ _ rfl hwf hres
      (runOk_stay s _ r _ hok ⟨rfl, rfl, rfl, rfl, rfl⟩ rfl rfl rfl ?_)
    exact ⟨fun _ => hm, fun hne => absurd hm hne, fun n hn => ⟨(hbound n hn).2 hph, by simp⟩⟩
  · exact inv_abort _ _ _ hwf (by simp)
  · refine inv_of_busy _ _ rfl hwf hres
      (runOk_stay s _ r _ hok ⟨rfl, rfl, rfl, rfl, rfl⟩ rfl rfl rfl ?_)
    have hbelow := (boundReached_eq_false_iff s.cfg r.polls).1 hb
    exact ⟨by simp, fun hne => absurd hm hne, fun n hn => ⟨(hbound n hn).1, fun _ => hbelow n hn⟩⟩

/-- R23: a completed operation leaves `LIFE` at no `Writing`. -/
theorem inv_complete : Inv (s.complete r.op) := by
  obtain ⟨hwf, -, -, hrun⟩ := hs
  obtain ⟨-, -, hwriting, -⟩ := hrun r hr
  exact inv_of_idle _ rfl hwf (by simp [okResult]) (post_ne_writing r.op s.life hwriting)

end inFlight

/-- Settles O47: idle, the next state is the same, answered, or at the start of an operation; in
flight, it is that of the micro-operation at `UPC` or of the complete step. -/
theorem stepKeepsTheInvariant : Obligations.StepKeepsTheInvariant := by
  unfold Obligations.StepKeepsTheInvariant
  intro s t hs h
  cases hr : s.run with
  | idle => exact inv_step_idle s t hs hr h
  | busy r =>
    rcases step_busy_cases s t r hr h with ⟨m, hm, rfl⟩ | ⟨-, rfl⟩
    · cases m with
      | set p l => exact inv_pinSetOp s r hs hr p l hm
      | xfer P => exact inv_busWriteOp s r hs hr P hm
      | dly n => exact inv_delayOp s r hs hr n hm
      | poll => exact inv_pollOp s r hs hr hm
    · exact inv_complete s r hs hr

/-- The accept step of a command always answers a next state (R101). -/
theorem exec_command_next (i : Instr) (s : State) (hc : i.channel = .command) :
    ∃ t, exec i s = .next t := by
  cases i with
  | stat | reset | waitBusy | powerOn | init | write _ | sleep | reserved07 _ | reservedHigh _ _ =>
    exact ⟨_, rfl⟩
  | resp _ _ _ _ | pon | drf | pof | dslp | set _ _ | xfer _ | dly _ | poll => cases hc

/-- R100: only `UPC` beyond the micro-program leaves no step. -/
theorem step_busy_next (s : State) (r : RunRec) (hr : s.run = .busy r)
    (hle : r.upc ≤ r.mp.length) : ∃ t, step s = .next t := by
  cases hm : r.mp[r.upc]? with
  | some m => exact ⟨_, (step_busy_micro s r m hr hm).trans (exec_micro m s r hr)⟩
  | none =>
    have hge := List.getElem?_eq_none_iff.1 hm
    exact ⟨_, step_busy_end s r hr (Nat.le_antisymm hle hge)⟩

theorem step_idle_next (s : State) (hi : s.run = .idle) : ∃ t, step s = .next t := by
  cases hf : s.env.frames with
  | nil => exact ⟨_, step_idle_nil s hi hf⟩
  | cons F rest =>
    cases hd : decodeFrame s.params.maxPayload F with
    | instr i =>
      rw [step_idle_instr s F rest i hi hf hd]
      exact exec_command_next i _ (decodeFrame_channel _ _ _ hd)
    | rejected e => exact ⟨_, step_idle_rejected s F rest e hi hf hd⟩

/-- Settles O48: idle there is always a step, and the invariant keeps `UPC` in range. -/
theorem stepNeverStops : Obligations.StepNeverStops := by
  unfold Obligations.StepNeverStops
  intro s hs
  cases hr : s.run with
  | idle => exact step_idle_next s hr
  | busy r =>
    obtain ⟨-, -, -, hrun⟩ := hs
    obtain ⟨-, hle, -⟩ := hrun r hr
    exact step_busy_next s r hr hle

theorem inv_constructed (c : Cfg) (p : Params) (hwf : p.WellFormed c) :
    Inv (State.constructed c p) :=
  inv_of_idle _ rfl hwf (by simp [State.constructed]) (by simp [State.constructed])

theorem length_cut_le (m : Nat) (P : Payload) (hm : 1 ≤ m) : (Config.cut m P).length ≤ m := by
  simp only [Config.cut, Payload.length, List.length_take]
  omega

/-- R7, R31: the parameters of the reset state are well-formed, whatever the OPEN ones are. -/
theorem wellFormed_reset : Config.params.WellFormed Config.cfg := by
  have hmax : 10 ≤ Config.maxPayload := Nat.le_add_left 10 _
  have htable : ∀ P ∈ Config.initTable, P.length ≤ Config.maxPayload := by
    intro P hP
    obtain ⟨Q, -, rfl⟩ := List.mem_map.1 hP
    exact length_cut_le _ Q (by omega)
  have hdslp : Config.params.dslpPayload.length ≤ Config.maxPayload :=
    Nat.le_trans (show 2 ≤ 10 by decide) hmax
  exact ⟨by decide, by decide, by decide, by decide, htable, by simp [Config.cfg], hmax, hdslp⟩

/-- Settles O46: a constructed state is idle, its result names no pin, and the reset state is
constructed from well-formed parameters. -/
theorem constructedStatesMeetTheInvariant : Obligations.ConstructedStatesMeetTheInvariant := by
  unfold Obligations.ConstructedStatesMeetTheInvariant
  exact ⟨inv_constructed, inv_constructed _ _ wellFormed_reset⟩

/-- Settles O45: construction tests the parameter set, and that of the reset state is well-formed.
-/
theorem constructionGivesTheResetState : Obligations.ConstructionGivesTheResetState := by
  unfold Obligations.ConstructionGivesTheResetState
  refine ⟨?_, ?_, ?_⟩
  · intro c p hwf
    exact ⟨_, if_pos hwf, rfl, rfl, rfl, rfl, rfl, fun q => by cases q <;> rfl, rfl⟩
  · intro c p hwf
    exact if_neg hwf
  · exact ⟨if_pos wellFormed_reset, rfl, rfl, rfl, rfl, rfl⟩

end Sys2Proof.Machine
end

section
/-! PROOFS. The accept step (40_microengine.md R101): a host operation is admitted and started, or
turned away (46_facade_ops.md R170); other frames are rejected (60_exceptions.md R204, R205). -/

namespace Sys2Proof

/-- The command that asks for an operation (R72, R101). -/
def HostOp.instr : HostOp → Instr
  | .reset => .reset
  | .waitBusy => .waitBusy
  | .powerOn => .powerOn
  | .init => .init
  | .write P => .write P
  | .sleep => .sleep

theorem HostOp.channel_instr (op : HostOp) : op.instr.channel = .command := by
  cases op <;> rfl

end Sys2Proof

namespace Sys2Proof.Machine

/-! Admission (R170) and transitions (R171). -/

theorem admitted_of_strict (op : HostOp) (l : Life) (strict : Bool)
    (h : strict = true → admitted op l true = true) : admitted op l strict = true := by
  cases strict with
  | false => rfl
  | true => exact h rfl

theorem admitted_reset (l : Life) (strict : Bool) : admitted .reset l strict = true :=
  admitted_of_strict _ _ _ fun _ => rfl

theorem admitted_init (l : Life) (strict : Bool) : admitted .init l strict = true :=
  admitted_of_strict _ _ _ fun _ => rfl

section

variable (l : Life) (strict : Bool)

theorem admitted_waitBusy (h : strict = true → l ≠ .failed) : admitted .waitBusy l strict = true :=
  admitted_of_strict _ _ _ fun hs => decide_eq_true (h hs)

theorem admitted_powerOn (h : strict = true → l ≠ .failed) : admitted .powerOn l strict = true :=
  admitted_of_strict _ _ _ fun hs => decide_eq_true (h hs)

theorem admitted_write (P : Payload) (h : strict = true → l = .initialized) :
    admitted (.write P) l strict = true :=
  admitted_of_strict _ _ _ fun hs => decide_eq_true (h hs)

theorem admitted_sleep (h : strict = true → l = .initialized) : admitted .sleep l strict = true :=
  admitted_of_strict _ _ _ fun hs => decide_eq_true (h hs)

end

theorem post_write (P : Payload) (l : Life) (h : l ≠ .writing) : post (.write P) l = l := if_neg h

/-- Settles O17: each entry of the matrix and of the transition function, by operation. -/
theorem admissionAndTransitions : Obligations.AdmissionAndTransitions := by
  unfold Obligations.AdmissionAndTransitions
  refine ⟨fun _ _ => rfl, fun l => ?_, fun l => ?_⟩
  · exact ⟨rfl, rfl, decide_eq_true_iff, decide_eq_true_iff, fun _ => decide_eq_true_iff,
      decide_eq_true_iff⟩
  · exact ⟨rfl, rfl, rfl, rfl, rfl, fun P => ⟨rfl, post_write P l⟩⟩

/-! A host operation presented to the idle sequencer. -/

section accept

variable (op : HostOp) (s : State) (hi : s.run = .idle) (hwf : op.instr.wf s.params = true)

include hi hwf

theorem exec_hostOp_idle : exec op.instr s = .next (s.acceptOp op) := by
  cases op with
  | write P =>
    exact congrArg Host.Outcome.next
      ((whenIdle_idle _ _ s hi).trans (if_pos (of_decide_eq_true hwf)))
  | reset | waitBusy | powerOn | init | sleep =>
    exact congrArg Host.Outcome.next (whenIdle_idle _ _ s hi)

theorem exec_hostOp_admitted (ha : admitted op s.life s.cfg.strict = true) :
    exec op.instr s = .next (s.start op) :=
  (exec_hostOp_idle op s hi hwf).trans (congrArg Host.Outcome.next (if_pos ha))

theorem exec_hostOp_notAdmitted (ha : admitted op s.life s.cfg.strict ≠ true) :
    exec op.instr s = .next (s.reject .precondition (stage op)) :=
  (exec_hostOp_idle op s hi hwf).trans (congrArg Host.Outcome.next (if_neg ha))

end accept

/-- An over-long WRITE is turned away before the lifecycle is looked at (R101, R204). -/
theorem exec_write_tooLong (P : Payload) (s : State) (hi : s.run = .idle)
    (hl : s.params.maxPayload < P.length) :
    exec (.write P) s = .next (s.reject .precondition .write) :=
  congrArg Host.Outcome.next ((whenIdle_idle _ _ s hi).trans (if_neg (Nat.not_le.2 hl)))

/-! What a response reports, as the bytes of a given frame (R76). -/

theorem State.reject_eq (s : State) (k : Kind) (st : Stage) (b0 b1 : Byte)
    (h0 : respByte0 k s.life = b0) (h1 : respByte1 .noPin st = b1) :
    s.reject k st = { s with
      result := ⟨k, .noPin, st⟩
      trace := s.trace ++ [.resp b0 b1] } := by
  rw [← h0, ← h1]
  rfl

theorem State.abort_eq (s : State) (f : MicroFault) (op : HostOp) (b0 : Byte)
    (h0 : respByte0 f.kind .failed = b0) :
    s.abort f op = { s with
      result := ⟨f.kind, f.pin, stage op⟩
      life := .failed
      run := .idle
      trace := s.trace ++ [.resp b0 (respByte1 f.pin (stage op))] } := by
  rw [← h0]
  rfl

/-! The micro-programs with a table, written out (R150, R163, R178). -/

theorem program_powerOn (p : Params) (h : 1 ≤ p.tPonSettleMs) :
    program p .powerOn =
      split ⟨p.ponCmd, []⟩ ++ [.poll, .dly p.tPonSettleMs] ++
      split ⟨p.drfCmd, [0x00]⟩ ++ [.poll] ++ split ⟨p.pofCmd, [0x00]⟩ := by
  have hpos : 0 < p.tPonSettleMs := h
  simp [program, powerTable, issueTable, entryOps, waitOps, dlyOps, hpos, ponPayload, drfPayload,
    pofPayload]

theorem program_init (p : Params) :
    program p .init = resetSeq p ++ [.poll] ++ p.initTable.flatMap split := by
  rw [← issueTable_initEntries]
  rfl

theorem program_sleep (p : Params) (h : 1 ≤ p.tSleepMs) :
    program p .sleep = split p.dslpPayload ++ [.dly p.tSleepMs] := by
  have hpos : 0 < p.tSleepMs := h
  simp [program, sleepTable, issueTable, entryOps, waitOps, dlyOps, hpos]

/-- Settles O10: RESET is admitted, and its program is the pulse train. -/
theorem resetStarts : Obligations.ResetStarts := by
  unfold Obligations.ResetStarts
  intro s hi
  exact exec_hostOp_admitted .reset s hi rfl (admitted_reset _ _)

/-- Settles O11: WAIT_BUSY is admitted, and its program is one POLL. -/
theorem waitBusyStarts : Obligations.WaitBusyStarts := by
  unfold Obligations.WaitBusyStarts
  intro s hi hl
  exact exec_hostOp_admitted .waitBusy s hi rfl (admitted_waitBusy _ _ hl)

/-- Settles O12: POWER_ON is admitted, and its program is the power table's. -/
theorem powerOnStarts : Obligations.PowerOnStarts := by
  unfold Obligations.PowerOnStarts
  intro s hi hl hset
  rw [← program_powerOn s.params hset]
  exact exec_hostOp_admitted .powerOn s hi rfl (admitted_powerOn _ _ hl)

/-- Settles O13: INIT is admitted, and the entries of its table are split writes. -/
theorem initStarts : Obligations.InitStarts := by
  unfold Obligations.InitStarts
  intro s hi
  rw [← List.flatMap_def, ← program_init s.params]
  exact exec_hostOp_admitted .init s hi rfl (admitted_init _ _)

/-- Settles O14: a WRITE within the bound is admitted, and `lifeInFlight` says where `LIFE` goes. -/
theorem writeStarts : Obligations.WriteStarts := by
  unfold Obligations.WriteStarts
  intro s P hi hlen hl
  exact exec_hostOp_admitted (.write P) s hi (decide_eq_true hlen) (admitted_write _ _ P hl)

/-- Settles O15: SLEEP is admitted, and its program is the sleep table's. -/
theorem sleepStarts : Obligations.SleepStarts := by
  unfold Obligations.SleepStarts
  intro s hi hl hms
  rw [← program_sleep s.params hms]
  exact exec_hostOp_admitted .sleep s hi rfl (admitted_sleep _ _ hl)

/-- Settles O16: what is not admitted is rejected with its own stage; of a WRITE the length is
looked at first, with the same answer. -/
theorem commandsNotAdmittedAreTurnedAway : Obligations.CommandsNotAdmittedAreTurnedAway := by
  unfold Obligations.CommandsNotAdmittedAreTurnedAway
  intro s hi
  refine ⟨fun hs hl => ⟨?_, ?_⟩, fun hs hl => ⟨fun P => ?_, ?_⟩, fun P hP => ?_⟩
  · rw [← s.reject_eq .precondition .waitBusy 0x46 0x02 (by rw [hl]; decide) (by decide)]
    exact exec_hostOp_notAdmitted .waitBusy s hi rfl (by rw [hs, hl]; decide)
  · rw [← s.reject_eq .precondition .powerOn 0x46 0x03 (by rw [hl]; decide) (by decide)]
    exact exec_hostOp_notAdmitted .powerOn s hi rfl (by rw [hs, hl]; decide)
  · rw [← s.reject_eq .precondition .write _ 0x05 rfl (by decide)]
    by_cases hP : P.length ≤ s.params.maxPayload
    · exact exec_hostOp_notAdmitted (.write P) s hi (decide_eq_true hP)
        (by simpa [hs, admitted] using hl)
    · exact exec_write_tooLong P s hi (Nat.not_le.1 hP)
  · rw [← s.reject_eq .precondition .sleep _ 0x06 rfl (by decide)]
    exact exec_hostOp_notAdmitted .sleep s hi rfl (by simpa [hs, admitted] using hl)
  · rw [← s.reject_eq .precondition .write _ 0x05 rfl (by decide)]
    exact exec_write_tooLong P s hi hP

/-- Settles O6: the two cases of the step that run an instruction. -/
theorem stepRunsTheDecodedInstruction : Obligations.StepRunsTheDecodedInstruction := by
  unfold Obligations.StepRunsTheDecodedInstruction
  exact ⟨step_idle_instr, step_busy_micro⟩

/-- Settles O9: STAT idle only responds. -/
theorem statAnswers : Obligations.StatAnswers := by
  unfold Obligations.StatAnswers
  exact exec_stat_idle

/-- A malformed frame is recorded and answered with the kind and stage of its error (R101). -/
theorem step_malformed (s : State) (F : Frame) (rest : List Frame) (e : DecodeError) (k : Kind)
    (st : Stage) (b1 : Byte) (hi : s.run = .idle) (hf : s.env.frames = F :: rest)
    (hd : decodeFrame s.params.maxPayload F = .rejected e) (he : rejection e = (k, st))
    (h1 : respByte1 .noPin st = b1) :
    step s = .next { s with
      result := ⟨k, .noPin, st⟩
      trace := s.trace ++ [.cmd F, .resp (respByte0 k s.life) b1]
      env := { s.env with frames := rest } } := by
  rw [step_idle_rejected s F rest e hi hf hd, he, State.reject_eq _ k st _ b1 rfl h1,
    List.append_cons s.trace]
  rfl

/-- Settles O8: a reserved code is an instruction that rejects; the errors of the decoder are
rejected by the accept step. -/
theorem framesWithoutAnOperationAreRejected : Obligations.FramesWithoutAnOperationAreRejected := by
  unfold Obligations.FramesWithoutAnOperationAreRejected
  have hnone : respByte1 .noPin .noStage = 0x00 := by decide
  have hwrite : respByte1 .noPin .write = 0x05 := by decide
  refine ⟨?_, ?_, ?_, ?_⟩
  · intro s rest hi
    rw [← s.reject_eq .illegalCommand .noStage _ 0x00 rfl hnone]
    exact congrArg Host.Outcome.next (whenIdle_idle _ _ s hi)
  · intro s b rest hi
    rw [← s.reject_eq .illegalCommand .noStage _ 0x00 rfl hnone]
    exact congrArg Host.Outcome.next (whenIdle_idle _ _ s hi)
  · intro s F rest e hi hf hd he
    rcases he with rfl | rfl <;> exact step_malformed s F rest _ _ _ _ hi hf hd rfl hnone
  · intro s F rest e hi hf hd he
    rcases he with rfl | rfl <;> exact step_malformed s F rest _ _ _ _ hi hf hd rfl hwrite

/-! The abort and the Bus Port's instructions, as whole next states (R82, R100, R145, R206). -/

/-- Settles O26: the abort writes the fields it names. -/
theorem abortRecordsTheFault : Obligations.AbortRecordsTheFault := by
  unfold Obligations.AbortRecordsTheFault
  intro s op
  have hpin : respByte0 .pinFault .failed = 0x26 := by decide
  exact ⟨fun p => s.abort_eq (.pinFault (pinTag p)) op 0x26 hpin,
    s.abort_eq .busFault op 0x16 (by decide), s.abort_eq .timeout op 0x36 (by decide)⟩

/-- Settles O25: micro-operations and panel payloads act on an operation in flight only. -/
theorem microOperationsNeedAnOperationInFlight :
    Obligations.MicroOperationsNeedAnOperationInFlight := by
  unfold Obligations.MicroOperationsNeedAnOperationInFlight
  intro s i hi hc
  cases i with
  | pon | drf | pof | dslp | set _ _ | xfer _ | dly _ | poll => exact inFlight_idle _ s hi
  | stat | reset | waitBusy | powerOn | init | write _ | sleep | reserved07 _ | reservedHigh _ _
  | resp _ _ _ _ => simp [Instr.channel] at hc

theorem pollOp_of_sleep_bound (r : RunRec) (s : State) (n : Nat) (hp : r.pollPh = .sleep)
    (hn : s.cfg.maxPolls = some n) (hle : n ≤ r.polls) :
    pollOp r s = (s.emit (.delay s.cfg.pollRateMs)).abort .timeout r.op := by
  simp [pollOp, hp, pollSleep, (boundReached_iff s.cfg.maxPolls r.polls).2 ⟨n, hn, hle⟩]

/-- Settles O22: the sleep phase of `pollOp`, by whether the bound is reached. -/
theorem pollSleepsAndTimesOut : Obligations.PollSleepsAndTimesOut := by
  unfold Obligations.PollSleepsAndTimesOut
  intro s r hr hp
  rw [exec_poll_busy s r hr]
  constructor
  · intro n hn hle
    rw [pollOp_of_sleep_bound r s n hp hn hle]
    rfl
  · intro hb
    rw [pollOp_of_sleep_belowBound r s hp hb]
    rfl

/-- Settles O23: the four rows are bus writes of their payloads. -/
theorem panelPayloadsGoOut : Obligations.PanelPayloadsGoOut := by
  unfold Obligations.PanelPayloadsGoOut
  intro s r hr pon drf pof called sent failed
  have issue (P : Payload) : inFlight (busWriteOp P) s = .next (busWriteOp P r s) :=
    inFlight_busy _ s r hr
  constructor
  · intro ha
    have hsent (P : Payload) : inFlight (busWriteOp P) s = .next (sent P) := by
      rw [issue, busWriteOp_of_ok P r s ha]
      rfl
    exact ⟨hsent pon, hsent drf, hsent pof, hsent s.params.dslpPayload⟩
  · intro ha
    have hfailed (P : Payload) : inFlight (busWriteOp P) s = .next (failed P) := by
      rw [issue, busWriteOp_of_fault P r s ha, State.abort_eq _ .busFault r.op 0x16 (by decide)]
      simp only [failed, called]
      rw [List.append_cons s.trace]
      rfl
    exact ⟨hfailed pon, hfailed drf, hfailed pof, hfailed s.params.dslpPayload⟩

end Sys2Proof.Machine
end

section
/-! PROOFS. Any stretch of a micro-program, its busy waits included: performed to its end with every
answer `ok`, or cut at a faulted SET or XFER (R61, R109, R146, R206); and the split write as a
stretch without a wait (41_split_writer.md R120 to R124). -/

namespace Sys2Proof.Machine

/-- The environment answers `ok` to each SET and XFER of `ops`, and lets its busy waits see as many
not-ready answers as `waits` says, each below the bound; `as` and `ls` are left. -/
structure AnswersWell (s : State) (ops : List MicroOp) (waits : List Nat) (as : List Answer)
    (ls : List Level) : Prop where
  waits_length : waits.length = waitsIn ops
  below : ∀ k ∈ waits, belowBound s.cfg k
  answers : s.env.answers = List.replicate (answersTaken ops) .ok ++ as
  levels : s.env.levels = (waits.map (waitLevels s.cfg)).flatten ++ ls

/-- `s` after the micro-operations `ops` of the operation `r`, answered so. -/
def State.went (s : State) (r : RunRec) (ops : List MicroOp) (waits : List Nat) (as : List Answer)
    (ls : List Level) : State :=
  { s with
    run := .busy { r with upc := r.upc + ops.length }
    pins := pinsAfter s.pins ops
    trace := s.trace ++ eventsOf s.cfg ops waits
    env := { s.env with
      answers := as
      levels := ls
      draws := s.env.draws + answersTaken ops + (waits.length + waits.sum) } }

theorem eventsOf_append (c : Cfg) (a b : List MicroOp) (ks js : List Nat)
    (h : ks.length = waitsIn a) :
    eventsOf c (a ++ b) (ks ++ js) = eventsOf c a ks ++ eventsOf c b js := by
  induction a generalizing ks with
  | nil =>
    obtain rfl := List.eq_nil_of_length_eq_zero h
    rfl
  | cons m t ih =>
    cases m with
    | set p l | xfer P | dly n => exact congrArg (List.cons _) (ih ks h)
    | poll =>
      cases ks with
      | nil => simp [waitsIn] at h
      | cons k ks => simpa [eventsOf] using ih ks (by simpa [waitsIn] using h)

theorem State.went_nil (s : State) (r : RunRec) (hr : s.run = .busy r) :
    s.went r [] [] s.env.answers s.env.levels = s := by
  cases s
  cases hr
  simp [State.went, pinsAfter, answersTaken, eventsOf]

theorem State.went_append (s : State) (r : RunRec) (a b : List MicroOp) (ks js : List Nat)
    (as bs : List Answer) (ls ms : List Level) (h : ks.length = waitsIn a) :
    (s.went r a ks as ls).went { r with upc := r.upc + a.length } b js bs ms =
      s.went r (a ++ b) (ks ++ js) bs ms := by
  simp [State.went, pinsAfter_append, answersTaken_append, eventsOf_append _ _ _ _ _ h,
    Nat.add_assoc]
  omega

/-- One micro-operation other than POLL goes as a stretch without a wait does. -/
theorem State.performed_eq_went (s : State) (r : RunRec) (m : MicroOp) (as : List Answer)
    (hw : waitsIn [m] = 0) : s.performed r [m] as = s.went r [m] [] as s.env.levels := by
  simp [State.performed, State.went, eventsOf_of_no_wait _ _ _ hw]

/-- A busy wait that sees `k` not-ready answers and then `ready` is over with the next
micro-operation ahead (R144, R146). -/
theorem runSteps_went_poll (s : State) (r : RunRec) (k : Nat) (ls : List Level)
    (hr : s.run = .busy r) (hm : r.mp[r.upc]? = some .poll) (hph : r.pollPh = .read)
    (hpolls : r.polls = 0) (hb : belowBound s.cfg k)
    (hl : s.env.levels = waitLevels s.cfg k ++ ls) :
    runSteps (2 * k + 1) s = .next (s.went r [.poll] [k] s.env.answers ls) := by
  have hbound : belowBound s.cfg (r.polls + k) := by rwa [hpolls, Nat.zero_add]
  have hlevels : s.env.levels =
      List.replicate k (otherLevel s.cfg.readyLevel) ++ s.cfg.readyLevel :: ls := by
    rw [hl, waitLevels, List.append_assoc]
    rfl
  rw [runSteps_wait s r k ls hr hm hph hbound hlevels]
  simp [State.polled, State.emit, State.takeLevel, State.advance, State.setRun, State.went,
    waitEvents, eventsOf, pinsAfter, answersTaken, hpolls, Nat.add_assoc, Nat.add_left_comm,
    Nat.add_comm]

/-- One micro-operation of either kind. -/
theorem runSteps_went_one (s : State) (r : RunRec) (m : MicroOp) (ks : List Nat)
    (as : List Answer) (ls : List Level) (hr : s.run = .busy r) (hm : r.mp[r.upc]? = some m)
    (hph : r.pollPh = .read) (hpolls : r.polls = 0) (h : AnswersWell s [m] ks as ls) :
    runSteps (1 + 2 * ks.sum) s = .next (s.went r [m] ks as ls) := by
  obtain ⟨hlen, hb, ha, hl⟩ := h
  cases hw : waitsIn [m] with
  | zero =>
    obtain rfl := List.eq_nil_of_length_eq_zero (hlen.trans hw)
    obtain rfl : s.env.levels = ls := hl
    rw [← s.performed_eq_went r m as hw]
    exact runSteps_one s _ (step_performs s r m as hr hm hw ha)
  | succ n =>
    cases m with
    | poll =>
      obtain ⟨k, rfl⟩ := List.length_eq_one_iff.1 hlen
      obtain rfl : s.env.answers = as := ha
      have hk : s.env.levels = waitLevels s.cfg k ++ ls := by simpa using hl
      rw [List.sum_singleton, Nat.add_comm]
      exact runSteps_went_poll s r k ls hr hm hph hpolls (hb k List.mem_cons_self) hk
    | set p l | xfer P | dly d => cases hw

/-- Good answers to `m :: ops` are good answers to `m`, and after it to `ops`. -/
theorem AnswersWell.uncons {s : State} {m : MicroOp} {ops : List MicroOp} {waits : List Nat}
    {as : List Answer} {ls : List Level} (h : AnswersWell s (m :: ops) waits as ls) (r : RunRec) :
    ∃ ks js as' ls', waits = ks ++ js ∧ AnswersWell s [m] ks as' ls' ∧
      AnswersWell (s.went r [m] ks as' ls') ops js as ls := by
  obtain ⟨hlen, hb, ha, hl⟩ := h
  rw [← List.singleton_append, waitsIn_append] at hlen
  rw [← List.singleton_append, answersTaken_append, ← List.replicate_append_replicate,
    List.append_assoc] at ha
  rw [← List.take_append_drop (waitsIn [m]) waits, List.map_append, List.flatten_append,
    List.append_assoc] at hl
  refine ⟨waits.take (waitsIn [m]), waits.drop (waitsIn [m]), _, _,
    (List.take_append_drop _ _).symm, ⟨?_, ?_, ha, hl⟩, ⟨?_, ?_, rfl, rfl⟩⟩
  · rw [List.length_take, hlen]
    omega
  · exact fun k hk => hb k (List.mem_of_mem_take hk)
  · rw [List.length_drop, hlen]
    omega
  · exact fun k hk => hb k (List.mem_of_mem_drop hk)

/-- A stretch of a micro-program, answered well, is performed in order: one step for each
micro-operation and two for each not-ready answer (R61 (a), R109, R146). -/
theorem runSteps_went (s : State) (r : RunRec) (ops : List MicroOp) (waits : List Nat)
    (as : List Answer) (ls : List Level) (hr : s.run = .busy r) (hmp : ops <+: r.mp.drop r.upc)
    (hph : r.pollPh = .read) (hpolls : r.polls = 0) (h : AnswersWell s ops waits as ls) :
    runSteps (ops.length + 2 * waits.sum) s = .next (s.went r ops waits as ls) := by
  induction ops generalizing s r waits with
  | nil =>
    obtain ⟨hlen, -, ha, hl⟩ := h
    obtain rfl := List.eq_nil_of_length_eq_zero hlen
    obtain rfl : s.env.answers = as := ha
    obtain rfl : s.env.levels = ls := hl
    rw [s.went_nil r hr]
    rfl
  | cons m ops ih =>
    obtain ⟨hm, hops⟩ := cons_prefix_drop hmp
    obtain ⟨ks, js, as', ls', rfl, hone, hrest⟩ := h.uncons r
    calc runSteps ((m :: ops).length + 2 * (ks ++ js).sum) s
      _ = runSteps (1 + 2 * ks.sum + (ops.length + 2 * js.sum)) s := by
        rw [List.length_cons, List.sum_append]
        congr 1
        omega
      _ = runSteps (ops.length + 2 * js.sum) (s.went r [m] ks as' ls') :=
        runSteps_add _ _ s _ (runSteps_went_one s r m ks as' ls' hr hm hph hpolls hone)
      _ = .next ((s.went r [m] ks as' ls').went { r with upc := r.upc + 1 } ops js as ls) :=
        ih _ _ js rfl hops hph hpolls hrest
      _ = .next (s.went r (m :: ops) (ks ++ js) as ls) :=
        congrArg _ (s.went_append r [m] ops ks js _ _ _ _ hone.waits_length)

/-- Settles O34: the rest of the micro-program is such a stretch. -/
theorem faultFreeRunPerformsTheProgram : Obligations.FaultFreeRunPerformsTheProgram := by
  unfold Obligations.FaultFreeRunPerformsTheProgram
  intro s r waits as ls hr hle hph hpolls hlen hb ha hl
  have hrun := runSteps_went s r _ waits as ls hr List.prefix_rfl hph hpolls ⟨hlen, hb, ha, hl⟩
  rw [List.length_drop] at hrun
  refine ⟨_, hrun, rfl, rfl, ?_, rfl, rfl, rfl, rfl, rfl, rfl, rfl⟩
  simp [State.went, Nat.add_sub_cancel' hle]

/-! The cut at a fault (R102, R103, R206). -/

/-- `s` after the SET or XFER `m` of the operation `op` was answered `fault`; the other
micro-operations ask for no answer. -/
def State.faulted (s : State) (m : MicroOp) (op : HostOp) : State :=
  match m with
  | .set p l =>
    ((s.emit (.pinSet p l)).takeAnswer.setPin p .unknown).abort (.pinFault (pinTag p)) op
  | .xfer P => ((s.emit (.busWrite P)).takeAnswer).abort .busFault op
  | .dly _ => s
  | .poll => s

theorem exec_faulted (s : State) (r : RunRec) (m : MicroOp) (hr : s.run = .busy r)
    (hm : answersTaken [m] = 1) (hf : s.answer = .fault) :
    exec m.instr s = .next (s.faulted m r.op) := by
  cases m with
  | set p l =>
    rw [MicroOp.instr, exec_set_busy p l s r hr, pinSetOp_of_fault p l r s hf]
    rfl
  | xfer P =>
    rw [MicroOp.instr, exec_xfer_busy P s r hr, busWriteOp_of_fault P r s hf]
    rfl
  | dly n | poll => cases hm

/-- What such a fault leaves: the operation is over and `Failed`, its event answered (R206). -/
theorem State.faulted_ends (s : State) (m : MicroOp) (op : HostOp) (hm : answersTaken [m] = 1) :
    (s.faulted m op).run = .idle ∧ (s.faulted m op).life = .failed ∧
      (s.faulted m op).result.stage = stage op ∧ (s.faulted m op).result.kind ≠ .ok ∧
      (s.faulted m op).env.frames = s.env.frames := by
  cases m with
  | set p l => exact ⟨rfl, rfl, rfl, MicroFault.kind_ne_ok (.pinFault (pinTag p)), rfl⟩
  | xfer P => exact ⟨rfl, rfl, rfl, MicroFault.kind_ne_ok .busFault, rfl⟩
  | dly n | poll => cases hm

theorem State.faulted_trace (s : State) (m : MicroOp) (op : HostOp) (hm : answersTaken [m] = 1) :
    (s.faulted m op).trace = s.trace ++ [MicroOp.event m,
      .resp (respByte0 (s.faulted m op).result.kind .failed)
        (respByte1 (s.faulted m op).result.pin (s.faulted m op).result.stage)] := by
  cases m with
  | set p l | xfer P =>
    rw [List.append_cons]
    rfl
  | dly n | poll => cases hm

/-- A fault after a stretch that was answered well. -/
theorem runSteps_went_fault (s : State) (r : RunRec) (ops : List MicroOp) (m : MicroOp)
    (waits : List Nat) (as : List Answer) (ls : List Level) (hr : s.run = .busy r)
    (hmp : ops ++ [m] <+: r.mp.drop r.upc) (hm : answersTaken [m] = 1) (hph : r.pollPh = .read)
    (hpolls : r.polls = 0) (h : AnswersWell s ops waits (.fault :: as) ls) :
    runSteps (ops.length + 2 * waits.sum + 1) s =
      .next ((s.went r ops waits (.fault :: as) ls).faulted m r.op) := by
  have hops : ops <+: r.mp.drop r.upc := (List.prefix_append ops [m]).trans hmp
  have hat : r.mp[r.upc + ops.length]? = some m := by
    obtain ⟨rest, hrest⟩ := hmp
    rw [← List.getElem?_drop, ← hrest]
    simp
  rw [runSteps_add _ 1 s _ (runSteps_went s r ops waits _ ls hr hops hph hpolls h)]
  exact runSteps_one _ _ ((step_busy_micro _ _ m rfl hat).trans
    (exec_faulted _ { r with upc := r.upc + ops.length } m rfl hm
      (State.answer_cons _ .fault as rfl)))

/-- Settles O35: the micro-operations before index `j` are a stretch answered well, and the one at
`j` is answered `fault`. -/
theorem firstFaultCutsTheProgram : Obligations.FirstFaultCutsTheProgram := by
  unfold Obligations.FirstFaultCutsTheProgram
  intro s r j m waits as ls hr hle hat hm hph hpolls hlen hb ha hl
  have hdrop : (r.mp.drop r.upc)[j - r.upc]? = some m := by
    rw [List.getElem?_drop, Nat.add_sub_cancel' hle, hat]
  have hmp : (r.mp.drop r.upc).take (j - r.upc) ++ [m] <+: r.mp.drop r.upc := by
    rw [← take_succ_eq_concat hdrop]
    exact List.take_prefix _ _
  have hlength : ((r.mp.drop r.upc).take (j - r.upc)).length = j - r.upc :=
    List.length_take_of_le (Nat.le_of_lt (List.getElem?_eq_some_iff.1 hdrop).1)
  have hrun := runSteps_went_fault s r _ m waits as ls hr hmp hm hph hpolls ⟨hlen, hb, ha, hl⟩
  rw [hlength] at hrun
  obtain ⟨hidle, hlife, hstage, hkind, hframes⟩ := State.faulted_ends
    (s.went r ((r.mp.drop r.upc).take (j - r.upc)) waits (.fault :: as) ls) m r.op hm
  exact ⟨_, hrun, hidle, hlife, hstage, hkind, State.faulted_trace _ m r.op hm, hframes⟩

/-! The split write (R120 to R124). -/

theorem split_prefix_drop {P : Payload} {r : RunRec} {a : Nat}
    (h : (r.mp.drop a).take 8 = split P) : split P <+: r.mp.drop a :=
  h ▸ List.take_prefix 8 _

theorem map_event_split (P : Payload) : (split P).map MicroOp.event = splitEvents P := rfl

/-- Settles O32: a split write holds no POLL, so with every answer `ok` its eight micro-operations
are performed in order. -/
theorem splitWriteSendsTwice : Obligations.SplitWriteSendsTwice := by
  unfold Obligations.SplitWriteSendsTwice
  intro s r P rest hr hmp ha
  exact ⟨_, runSteps_performs s r (split P) rest hr (split_prefix_drop hmp) rfl ha,
    rfl, rfl, rfl, rfl, rfl, rfl⟩

theorem waitsIn_take_split (P : Payload) (j : Nat) : waitsIn ((split P).take j) = 0 := by
  have h := waitsIn_append ((split P).take j) ((split P).drop j)
  rw [List.take_append_drop] at h
  have hz : waitsIn (split P) = 0 := rfl
  omega

/-- Each micro-operation of a split write asks for one answer. -/
theorem answersTaken_take_split (P : Payload) (j : Nat) (hj : j ≤ 8) :
    answersTaken ((split P).take j) = j := by
  match j, hj with
  | 0, _ | 1, _ | 2, _ | 3, _ | 4, _ | 5, _ | 6, _ | 7, _ | 8, _ => rfl

theorem answersTaken_of_mem_split (P : Payload) (m : MicroOp) (h : m ∈ split P) :
    answersTaken [m] = 1 := by
  simp only [split, List.mem_cons, List.not_mem_nil, or_false] at h
  rcases h with rfl | rfl | rfl | rfl | rfl | rfl | rfl | rfl <;> rfl

/-- A split write up to a fault at its step `j`. -/
theorem runSteps_split_fault (s : State) (r : RunRec) (P : Payload) (j : Nat) (m : MicroOp)
    (hm : (split P)[j]? = some m) (as : List Answer) (hr : s.run = .busy r)
    (hmp : split P <+: r.mp.drop r.upc)
    (ha : s.env.answers = List.replicate j .ok ++ .fault :: as) :
    runSteps (j + 1) s =
      .next ((s.performed r ((split P).take j) (.fault :: as)).faulted m r.op) := by
  have hj : j ≤ 8 := Nat.le_of_lt (List.getElem?_eq_some_iff.1 hm).1
  have hlen : ((split P).take j).length = j := List.length_take_of_le hj
  have hcut : (split P).take j ++ [m] <+: r.mp.drop r.upc := by
    rw [← take_succ_eq_concat hm]
    exact (List.take_prefix _ _).trans hmp
  have hrun := runSteps_performs_exec s r ((split P).take j) m (.fault :: as) hr hcut
    (waitsIn_take_split P j) (by rw [answersTaken_take_split P j hj, ha])
  rw [hlen] at hrun
  rw [hrun]
  exact exec_faulted _ { r with upc := r.upc + ((split P).take j).length } m rfl
    (answersTaken_of_mem_split P m (List.mem_of_getElem? hm)) (State.answer_cons _ .fault as rfl)

theorem take_succ_splitEvents (P : Payload) (j : Nat) (m : MicroOp) (hm : (split P)[j]? = some m) :
    (splitEvents P).take (j + 1) =
      ((split P).take j).map MicroOp.event ++ [MicroOp.event m] := by
  rw [← map_event_split, ← List.map_take, take_succ_eq_concat hm, List.map_append]
  rfl

/-- Settles O33: the fault ends the split write at its step `j`; the table is read off step by step.
-/
theorem splitWriteFaultTable : Obligations.SplitWriteFaultTable := by
  unfold Obligations.SplitWriteFaultTable
  intro s r P j rest hr hmp hj ha
  obtain ⟨m, hm⟩ : ∃ m, (split P)[j]? = some m := ⟨_, List.getElem?_eq_getElem (l := split P) hj⟩
  have hone := answersTaken_of_mem_split P m (List.mem_of_getElem? hm)
  obtain ⟨hidle, hlife, hstage, -, -⟩ :=
    State.faulted_ends (s.performed r ((split P).take j) (.fault :: rest)) m r.op hone
  refine ⟨_, runSteps_split_fault s r P j m hm rest hr (split_prefix_drop hmp) ha, hidle, hlife, ?_,
    hstage, ?_⟩
  · rw [State.faulted_trace _ _ _ hone, List.append_cons, take_succ_splitEvents P j m hm,
      ← List.append_assoc]
    rfl
  · match j, hj, hm with
    | 0, _, rfl | 1, _, rfl | 2, _, rfl | 3, _, rfl | 4, _, rfl | 5, _, rfl | 6, _, rfl
    | 7, _, rfl => exact ⟨rfl, rfl⟩

end Sys2Proof.Machine
end

section
/-! PROOFS. Whole operations (42 to 46), from the frame to the response: accepted, performed to the
end or cut at a fault, and completed or aborted (R101, R106, R206). -/

namespace Sys2Proof.Machine

/-- The idle sequencer is presented the frame `F` of the operation `op`, which it admits; the frames
`rest` are held behind it. -/
structure Presented (s : State) (op : HostOp) (F : Frame) (rest : List Frame) : Prop where
  idle : s.run = .idle
  frames : s.env.frames = F :: rest
  encoded : encode s.params op.instr = some F
  wf : op.instr.wf s.params = true
  admitted : admitted op s.life s.cfg.strict = true

/-- The accept step of an admitted operation (R101). -/
theorem step_accepts (s : State) (op : HostOp) (F : Frame) (rest : List Frame)
    (h : Presented s op F rest) : step s = .next ((s.takeFrame F rest).start op) := by
  obtain ⟨hi, hf, he, hwf, ha⟩ := h
  have hd : decodeFrame s.params.maxPayload F = .instr op.instr :=
    commandFramesRoundTrip s.params op.instr F op.channel_instr hwf he
  rw [step_idle_instr s F rest op.instr hi hf hd]
  exact exec_hostOp_admitted op _ hi hwf ha

/-- The operation `op` right after its acceptance (R101). -/
def started (s : State) (op : HostOp) : RunRec := ⟨op, program s.params op, 0, .read, 0⟩

/-- An admitted operation whose micro-program is answered well runs from the frame to the response
`Ok` (R106, R109); `b0` and `b1` are the bytes of the response. -/
theorem runSteps_operation (s : State) (op : HostOp) (F : Frame) (rest : List Frame)
    (waits : List Nat) (as : List Answer) (ls : List Level) (b0 b1 : Byte)
    (h : Presented s op F rest) (hw : AnswersWell s (program s.params op) waits as ls)
    (h0 : respByte0 .ok (post op (lifeInFlight op s.life)) = b0)
    (h1 : respByte1 .noPin (stage op) = b1) :
    ∃ t, runSteps ((program s.params op).length + 2 * waits.sum + 2) s = .next t ∧
      t.trace = s.trace ++ [.cmd F] ++ eventsOf s.cfg (program s.params op) waits ++
        [.resp b0 b1] ∧
      t.life = post op (lifeInFlight op s.life) ∧ t.result = okResult op ∧ t.run = .idle ∧
      t.pins = pinsAfter s.pins (program s.params op) ∧ t.env.frames = rest ∧
      t.env.levels = ls := by
  have hwent := runSteps_went ((s.takeFrame F rest).start op) (started s op) _ waits as ls rfl
    List.prefix_rfl rfl rfl ⟨hw.waits_length, hw.below, hw.answers, hw.levels⟩
  have hend := step_busy_end (((s.takeFrame F rest).start op).went (started s op)
    (program s.params op) waits as ls) _ rfl (Nat.zero_add _)
  have hrun := (runSteps_succ _ s _ (step_accepts s op F rest h)).trans
    ((runSteps_add _ 1 _ _ hwent).trans (runSteps_one _ _ hend))
  refine ⟨_, hrun, ?_, rfl, rfl, rfl, rfl, rfl, rfl⟩
  rw [← h0, ← h1]
  rfl

/-- An admitted operation whose micro-program is answered well up to the SET or XFER `m`, and that
`fault`, is cut there (R206). -/
theorem runSteps_operation_fault (s : State) (op : HostOp) (F : Frame) (rest : List Frame)
    (ops : List MicroOp) (m : MicroOp) (waits : List Nat) (as : List Answer) (ls : List Level)
    (h : Presented s op F rest) (hmp : ops ++ [m] <+: program s.params op)
    (hm : answersTaken [m] = 1) (hw : AnswersWell s ops waits (.fault :: as) ls) :
    runSteps (ops.length + 2 * waits.sum + 2) s =
      .next (((s.takeFrame F rest).start op).went (started s op) ops waits (.fault :: as) ls
        |>.faulted m op) := by
  rw [runSteps_succ _ s _ (step_accepts s op F rest h)]
  exact runSteps_went_fault _ (started s op) ops m waits as ls rfl hmp hm rfl rfl
    ⟨hw.waits_length, hw.below, hw.answers, hw.levels⟩

/-! The operations without a busy wait: RESET, WRITE, SLEEP. -/

/-- Without a busy wait only the answers matter. -/
theorem answersWell_of_no_wait (s : State) (ops : List MicroOp) (as : List Answer)
    (hw : waitsIn ops = 0) (ha : s.env.answers = List.replicate (answersTaken ops) .ok ++ as) :
    AnswersWell s ops [] as s.env.levels :=
  ⟨hw.symm, by simp, ha, rfl⟩

/-- Settles O36: the micro-program of RESET is the pulse train. -/
theorem resetRunsToCompletion : Obligations.ResetRunsToCompletion := by
  unfold Obligations.ResetRunsToCompletion
  intro s rest as hi hf ha
  obtain ⟨t, hrun, htrace, hlife, hresult, hidle, hpins, hframes, -⟩ :=
    runSteps_operation s .reset [0x01] rest [] as s.env.levels 0x01 0x01
      ⟨hi, hf, rfl, rfl, admitted_reset _ _⟩ (answersWell_of_no_wait s _ as rfl ha)
      (show respByte0 .ok .reset = 0x01 by decide) (by decide)
  exact ⟨t, hrun, htrace, hlife, hresult, hidle, hpins, hframes⟩

/-- R171, D25: a WRITE puts `LIFE` back where it found it. -/
theorem post_lifeInFlight_write (P : Payload) (l : Life) (h : l ≠ .writing) :
    post (.write P) (lifeInFlight (.write P) l) = l := by
  cases l with
  | writing => exact absurd rfl h
  | uninitialized | reset | poweredOn | initialized | sleeping | failed => rfl

/-- Settles O43: the micro-program of WRITE is one split write. -/
theorem writeRunsToCompletion : Obligations.WriteRunsToCompletion := by
  unfold Obligations.WriteRunsToCompletion
  intro s P rest as hi hl hne hf hlen ha
  have hpost := post_lifeInFlight_write P s.life hne
  obtain ⟨t, hrun, htrace, hlife, hresult, hidle, hpins, hframes, -⟩ :=
    runSteps_operation s (.write P) (0x05 :: P.bytes) rest [] as s.env.levels
      (respByte0 .ok s.life) 0x05
      ⟨hi, hf, rfl, decide_eq_true hlen, admitted_write _ _ P hl⟩
      (answersWell_of_no_wait s _ as rfl ha) (by rw [hpost])
      (show respByte1 .noPin .write = 0x05 by decide)
  exact ⟨t, hrun, htrace, hlife.trans hpost, hresult, hidle, hpins, hframes⟩

/-- Settles O44: the micro-program of SLEEP is one split write and the delay. -/
theorem sleepRunsToCompletion : Obligations.SleepRunsToCompletion := by
  unfold Obligations.SleepRunsToCompletion
  intro s rest as hi hl hf hms ha
  have hprog := program_sleep s.params hms
  obtain ⟨t, hrun, htrace, hlife, hresult, hidle, hpins, hframes, -⟩ :=
    runSteps_operation s .sleep [0x06] rest [] as s.env.levels 0x05 0x06
      ⟨hi, hf, rfl, rfl, admitted_sleep _ _ hl⟩
      (answersWell_of_no_wait s _ as (by rw [hprog]; rfl) (by rw [hprog]; exact ha))
      (show respByte0 .ok .sleeping = 0x05 by decide) (by decide)
  rw [hprog] at hrun htrace hpins
  refine ⟨t, hrun, ?_, hlife, hresult, hidle, hpins, hframes⟩
  rw [htrace, List.append_assoc _ (splitEvents _)]
  rfl

/-! The operations with busy waits: WAIT_BUSY, POWER_ON, INIT. -/

theorem length_waitEvents (c : Cfg) (k : Nat) : (waitEvents c k).length = 2 * k + 1 := by
  simp [waitEvents, Nat.mul_comm]

theorem length_splitEvents (P : Payload) : (splitEvents P).length = 8 := rfl

theorem length_flatten_splitEvents (T : List Payload) :
    (T.map splitEvents).flatten.length = 8 * T.length := by
  induction T with
  | nil => rfl
  | cons P T ih =>
    rw [List.map_cons, List.flatten_cons, List.length_append, ih, List.length_cons, Nat.mul_succ,
      Nat.add_comm]
    rfl

/-- Settles O37: the micro-program of WAIT_BUSY is one POLL. -/
theorem waitBusyEndsWhenReady : Obligations.WaitBusyEndsWhenReady := by
  unfold Obligations.WaitBusyEndsWhenReady
  intro s k rest ls hi hl hf hlev hb
  have hlevels : s.env.levels = ([k].map (waitLevels s.cfg)).flatten ++ ls := by
    simp [hlev, waitLevels]
  obtain ⟨t, hrun, htrace, hlife, hresult, hidle, hpins, hframes, hleft⟩ :=
    runSteps_operation s .waitBusy [0x02] rest [k] s.env.answers ls (respByte0 .ok s.life) 0x02
      ⟨hi, hf, rfl, rfl, admitted_waitBusy _ _ hl⟩
      ⟨rfl, List.forall_mem_singleton.2 hb, rfl, hlevels⟩ rfl (by decide)
  refine ⟨t, ?_, ?_, hlife, hresult, hidle, hpins, hframes, hleft⟩
  · rw [← hrun]
    congr 1
    simp [program]
    omega
  · rw [htrace]
    simp [program, eventsOf, waitEvents]

/-- A round of a busy wait whose sleep meets the bound (R145). -/
theorem runSteps_timeout (s : State) (r : RunRec) (ls : List Level) (hr : s.run = .busy r)
    (hm : r.mp[r.upc]? = some .poll) (hp : r.pollPh = .read)
    (hn : s.cfg.maxPolls = some (r.polls + 1))
    (hl : s.env.levels = otherLevel s.cfg.readyLevel :: ls) :
    runSteps 2 s = .next ((s.polled r 1 ls).abort .timeout r.op) := by
  have hnot : s.level ≠ s.cfg.readyLevel := by
    rw [s.level_cons _ ls hl]
    exact otherLevel_ne _
  rw [runSteps_succ 1 s _ (step_poll_notReady s r hr hm hp hnot), runSteps_one _ _
    ((step_poll (((s.emit .busyRead).takeLevel).setRun _)
      { r with polls := r.polls + 1, pollPh := .sleep } rfl hm).trans
    (congrArg _ (pollOp_of_sleep_bound _ _ _ rfl hn (Nat.le_refl _))))]
  simp [State.setRun, State.takeLevel, State.emit, State.polled, hl, State.abort, State.setResult,
    State.setLife, State.respond, State.sendResp]

/-- A busy wait that sees as many not-ready answers as the bound (R145, R146). -/
theorem runSteps_rounds_timeout (s : State) (r : RunRec) (k : Nat) (ls : List Level)
    (hr : s.run = .busy r) (hm : r.mp[r.upc]? = some .poll) (hp : r.pollPh = .read)
    (hpolls : r.polls = 0) (hn : s.cfg.maxPolls = some (k + 1))
    (hl : s.env.levels = List.replicate (k + 1) (otherLevel s.cfg.readyLevel) ++ ls) :
    runSteps (2 * k + 2) s = .next ((s.polled r (k + 1) ls).abort .timeout r.op) := by
  have hlevels : s.env.levels = List.replicate k (otherLevel s.cfg.readyLevel) ++
      otherLevel s.cfg.readyLevel :: ls := by
    rw [hl, List.replicate_succ', List.append_assoc]
    rfl
  have hbelow : belowBound s.cfg (r.polls + k) := by simp [belowBound, hn, hpolls]
  rw [runSteps_add _ 2 _ _ (runSteps_rounds s r k _ hr hm hp hbelow hlevels),
    runSteps_timeout _ { r with polls := r.polls + k } ls rfl hm hp
      (by rw [hpolls, Nat.zero_add]; exact hn) rfl, s.polled_add]

/-- Settles O38: the busy wait of WAIT_BUSY meets its bound. -/
theorem waitBusyTimesOut : Obligations.WaitBusyTimesOut := by
  unfold Obligations.WaitBusyTimesOut
  intro s n rest ls hi hl hf hn hpos hlev
  obtain ⟨k, rfl⟩ : ∃ k, n = k + 1 := ⟨n - 1, by omega⟩
  have hstep := step_accepts s .waitBusy [0x02] rest
    ⟨hi, hf, rfl, rfl, admitted_waitBusy _ _ hl⟩
  have hwait := runSteps_rounds_timeout ((s.takeFrame [0x02] rest).start .waitBusy)
    (started s .waitBusy) k ls rfl rfl rfl rfl hn hlev
  refine ⟨_, (runSteps_succ _ s _ hstep).trans hwait, ?_, rfl, rfl, rfl, rfl, rfl, rfl⟩
  have hstage : respByte1 .noPin .waitBusy = 0x02 := by decide
  rw [State.abort_eq _ .timeout (started s .waitBusy).op 0x36 (by decide)]
  exact congrArg (fun b => _ ++ [Event.resp 0x36 b]) hstage

/-- Settles O40: the micro-program of POWER_ON is three split writes, two waits and a delay. -/
theorem powerOnRunsToCompletion : Obligations.PowerOnRunsToCompletion := by
  unfold Obligations.PowerOnRunsToCompletion
  intro s k1 k2 rest as ls hi hl hf hset ha hlev hb1 hb2
  have hprog := program_powerOn s.params hset
  have hlevels : s.env.levels = ([k1, k2].map (waitLevels s.cfg)).flatten ++ ls := by
    simpa using hlev
  obtain ⟨t, hrun, htrace, hlife, hresult, hidle, hpins, hframes, -⟩ :=
    runSteps_operation s .powerOn [0x03] rest [k1, k2] as ls 0x02 0x03
      ⟨hi, hf, rfl, rfl, admitted_powerOn _ _ hl⟩
      ⟨by rw [hprog]; rfl, List.forall_mem_cons.2 ⟨hb1, List.forall_mem_singleton.2 hb2⟩,
        by rw [hprog]; exact ha, hlevels⟩
      (show respByte0 .ok .poweredOn = 0x02 by decide) (by decide)
  rw [hprog] at hrun htrace hpins
  refine ⟨t, _, ?_, ?_, rfl, ?_, hlife, hresult, hidle, hpins, hframes⟩
  · rw [← hrun]
    congr 1
    simp
    omega
  · rw [htrace]
    simp [eventsOf, split, splitEvents]
  · simp [length_waitEvents, length_splitEvents]
    omega

/-! INIT: the pulse train, the wait, and the entries of any table, in stretches of its micro-program
that end inside an entry or at the end (R163, R165). -/

/-- The micro-program of INIT through the entries of `T`, and `tail` after them. -/
def initOps (p : Params) (T : List Payload) (tail : List MicroOp) : List MicroOp :=
  resetSeq p ++ [.poll] ++ T.flatMap split ++ tail

theorem answersTaken_flatMap_split (T : List Payload) :
    answersTaken (T.flatMap split) = 8 * T.length := by
  induction T with
  | nil => rfl
  | cons P T ih =>
    rw [List.flatMap_cons, answersTaken_append, ih, List.length_cons, Nat.mul_succ, Nat.add_comm]
    rfl

theorem waitsIn_flatMap_split (T : List Payload) : waitsIn (T.flatMap split) = 0 := by
  induction T with
  | nil => rfl
  | cons P T ih =>
    rw [List.flatMap_cons, waitsIn_append, ih]
    rfl

section initOps

variable (p : Params) (T : List Payload) (tail : List MicroOp)

theorem length_initOps : (initOps p T tail).length = 8 + 8 * T.length + tail.length := by
  simp only [initOps, List.length_append, length_resetSeq, List.length_singleton,
    length_flatMap_split]

theorem answersTaken_initOps :
    answersTaken (initOps p T tail) = 4 + 8 * T.length + answersTaken tail := by
  rw [initOps, answersTaken_append, answersTaken_append, answersTaken_append,
    answersTaken_flatMap_split]
  rfl

theorem waitsIn_initOps : waitsIn (initOps p T tail) = 1 + waitsIn tail := by
  rw [initOps, waitsIn_append, waitsIn_append, waitsIn_append, waitsIn_flatMap_split]
  rfl

theorem eventsOf_initOps (c : Cfg) (k : Nat) (hw : waitsIn tail = 0) :
    eventsOf c (initOps p T tail) [k] =
      resetEvents p ++ waitEvents c k ++ (T.map splitEvents).flatten ++
        tail.map MicroOp.event := by
  have hhead : eventsOf c (resetSeq p ++ [.poll]) [k] = resetEvents p ++ waitEvents c k := by
    simp [resetSeq, eventsOf, resetEvents]
  have hrest : waitsIn (T.flatMap split ++ tail) = 0 := by
    rw [waitsIn_append, waitsIn_flatMap_split, hw]
  have happend := eventsOf_append c (resetSeq p ++ [.poll]) (T.flatMap split ++ tail) [k] [] rfl
  rw [hhead, eventsOf_of_no_wait _ _ _ hrest, List.map_append, List.map_flatMap] at happend
  rw [initOps, List.append_assoc _ _ tail, List.append_assoc _ _ (tail.map _), ← List.flatMap_def]
  exact happend

end initOps

theorem program_init_eq_initOps (p : Params) : program p .init = initOps p p.initTable [] := by
  rw [program_init, initOps, List.append_nil]

/-- Within a split write RST is not set. -/
theorem pinsAfter_rst_flatMap_split (ps : Pins) (T : List Payload) :
    (pinsAfter ps (T.flatMap split)).rst = ps.rst := by
  induction T generalizing ps with
  | nil => rfl
  | cons P T ih =>
    rw [List.flatMap_cons, pinsAfter_append, ih]
    rfl

/-- Settles O41: the micro-program of INIT is the pulse train, one POLL and a split write per entry.
-/
theorem initRunsToCompletion : Obligations.InitRunsToCompletion := by
  unfold Obligations.InitRunsToCompletion
  intro s k rest as ls hi hf ha hlev hb
  have hprog := program_init_eq_initOps s.params
  have hlevels : s.env.levels = ([k].map (waitLevels s.cfg)).flatten ++ ls := by simpa using hlev
  obtain ⟨t, hrun, htrace, hlife, hresult, hidle, hpins, hframes, -⟩ :=
    runSteps_operation s .init [0x04] rest [k] as ls 0x03 0x04
      ⟨hi, hf, rfl, rfl, admitted_init _ _⟩
      ⟨by rw [hprog, waitsIn_initOps]; rfl, List.forall_mem_singleton.2 hb,
        by rw [hprog, answersTaken_initOps]; exact ha, hlevels⟩
      (show respByte0 .ok .initialized = 0x03 by decide) (by decide)
  rw [hprog, length_initOps] at hrun
  rw [hprog, eventsOf_initOps _ _ _ _ _ rfl, List.map_nil, List.append_nil] at htrace
  refine ⟨t, _, ?_, htrace, rfl, ?_, hlife, hresult, hidle, ?_, hframes⟩
  · rw [← hrun]
    congr 1
    simp
    omega
  · simp only [List.length_append, length_waitEvents, length_flatten_splitEvents]
    rfl
  · rw [hpins, program_init, pinsAfter_append, pinsAfter_rst_flatMap_split]
    rfl

/-- INIT up to a bus write of an entry of its table (R165). -/
theorem initOps_prefix (p : Params) (k j : Nat) (P : Payload) (m : MicroOp)
    (hP : p.initTable[k]? = some P) (hm : (split P)[j]? = some m) :
    initOps p (p.initTable.take k) ((split P).take j) ++ [m] <+: program p .init := by
  have htable : p.initTable = p.initTable.take k ++ [P] ++ p.initTable.drop (k + 1) := by
    rw [← take_succ_eq_concat hP, List.take_append_drop]
  have hentry : split P = (split P).take j ++ [m] ++ (split P).drop (j + 1) := by
    rw [← take_succ_eq_concat hm, List.take_append_drop]
  refine ⟨(split P).drop (j + 1) ++ (p.initTable.drop (k + 1)).flatMap split, ?_⟩
  have hflat : p.initTable.flatMap split = (p.initTable.take k).flatMap split ++
      ((split P).take j ++ [m] ++ (split P).drop (j + 1)) ++
      (p.initTable.drop (k + 1)).flatMap split := by
    calc p.initTable.flatMap split
      _ = (p.initTable.take k ++ [P] ++ p.initTable.drop (k + 1)).flatMap split :=
        congrArg (List.flatMap split) htable
      _ = (p.initTable.take k).flatMap split ++ split P ++
          (p.initTable.drop (k + 1)).flatMap split := by
        rw [List.flatMap_append, List.flatMap_append, List.flatMap_singleton]
      _ = _ := by rw [← hentry]
  rw [program_init, hflat, initOps]
  simp only [List.append_assoc]

/-- INIT cut at the bus write at step `j` of the entry of index `k` (R165). -/
theorem init_cut (s : State) (k w j : Nat) (P : Payload) (rest : List Frame) (as : List Answer)
    (ls : List Level) (hi : s.run = .idle) (hf : s.env.frames = [0x04] :: rest)
    (hP : s.params.initTable[k]? = some P) (hj : (split P)[j]? = some (.xfer P))
    (ha : s.env.answers = List.replicate (4 + 8 * k + j) .ok ++ .fault :: as)
    (hlev : s.env.levels = waitLevels s.cfg w ++ ls) (hb : belowBound s.cfg w) :
    ∃ t, runSteps (9 + 8 * k + 2 * w + (j + 1)) s = .next t ∧
      t.trace = s.trace ++ [.cmd [0x04]] ++
        (resetEvents s.params ++ waitEvents s.cfg w ++
          ((s.params.initTable.take k).map splitEvents).flatten ++ (splitEvents P).take (j + 1)) ++
        [.resp 0x16 0x04] ∧
      t.run = .idle ∧ t.life = .failed ∧ t.result = ⟨.busFault, .noPin, .init⟩ ∧
      t.env.frames = rest := by
  have hk : (s.params.initTable.take k).length = k :=
    List.length_take_of_le (Nat.le_of_lt (List.getElem?_eq_some_iff.1 hP).1)
  have hj8 : j ≤ 8 := Nat.le_of_lt (List.getElem?_eq_some_iff.1 hj).1
  have hlen : (initOps s.params (s.params.initTable.take k) ((split P).take j)).length =
      8 + 8 * k + j := by
    rw [length_initOps, hk, List.length_take_of_le hj8]
  have hw : AnswersWell s (initOps s.params (s.params.initTable.take k) ((split P).take j)) [w]
      (.fault :: as) ls := by
    refine ⟨?_, List.forall_mem_singleton.2 hb, ?_, by simpa using hlev⟩
    · rw [waitsIn_initOps, waitsIn_take_split]
      rfl
    · rw [answersTaken_initOps, hk, answersTaken_take_split P j hj8, ha]
  have hrun := runSteps_operation_fault s .init [0x04] rest _ (.xfer P) [w] as ls
    ⟨hi, hf, rfl, rfl, admitted_init _ _⟩ (initOps_prefix s.params k j P _ hP hj) rfl hw
  have hsteps : 8 + 8 * k + j + 2 * [w].sum + 2 = 9 + 8 * k + 2 * w + (j + 1) := by
    rw [List.sum_singleton]
    omega
  rw [hlen, hsteps] at hrun
  refine ⟨_, hrun, ?_, rfl, rfl, rfl, rfl⟩
  have hevents :
      eventsOf s.cfg (initOps s.params (s.params.initTable.take k) ((split P).take j)) [w] ++
        [.busWrite P] = resetEvents s.params ++ waitEvents s.cfg w ++
        ((s.params.initTable.take k).map splitEvents).flatten ++ (splitEvents P).take (j + 1) := by
    rw [eventsOf_initOps _ _ _ _ _ (waitsIn_take_split P j), take_succ_splitEvents P j _ hj,
      List.append_assoc]
    rfl
  have hstage : respByte1 .noPin .init = 0x04 := by decide
  rw [State.faulted, State.abort_eq _ .busFault .init 0x16 (by decide), ← hevents,
    ← List.append_assoc]
  exact congrArg (fun b => _ ++ [Event.resp 0x16 b]) hstage

theorem busWrites_waitEvents (c : Cfg) (k : Nat) :
    (waitEvents c k).filter Event.isBusWrite = [] := by
  simp [waitEvents]

theorem busWrites_resetEvents (p : Params) : (resetEvents p).filter Event.isBusWrite = [] := rfl

theorem length_busWrites_splitEvents (T : List Payload) :
    ((T.map splitEvents).flatten.filter Event.isBusWrite).length = 2 * T.length := by
  induction T with
  | nil => rfl
  | cons P T ih =>
    rw [List.map_cons, List.flatten_cons, List.filter_append, List.length_append, ih,
      List.length_cons, Nat.mul_succ, Nat.add_comm]
    rfl

/-- Settles O42: the first bus write of an entry stands at its step 1, the second at its step 5. -/
theorem initAbortsAtTheFailingEntry : Obligations.InitAbortsAtTheFailingEntry := by
  unfold Obligations.InitAbortsAtTheFailingEntry
  intro s k w P rest as ls second hi hf hP ha hlev hb
  have hk : (s.params.initTable.take k).length = k :=
    List.length_take_of_le (Nat.le_of_lt (List.getElem?_eq_some_iff.1 hP).1)
  cases second with
  | false =>
    obtain ⟨t, hrun, htrace, hend⟩ := init_cut s k w 1 P rest as ls hi hf hP rfl ha hlev hb
    refine ⟨t, _, hrun, htrace, rfl, ?_, hend⟩
    simp only [List.filter_append, List.length_append, busWrites_resetEvents,
      busWrites_waitEvents, length_busWrites_splitEvents, hk, List.length_nil, Nat.zero_add]
    rfl
  | true =>
    obtain ⟨t, hrun, htrace, hend⟩ := init_cut s k w 5 P rest as ls hi hf hP rfl ha hlev hb
    refine ⟨t, _, hrun, htrace, rfl, ?_, hend⟩
    simp only [List.filter_append, List.length_append, busWrites_resetEvents,
      busWrites_waitEvents, length_busWrites_splitEvents, hk, List.length_nil, Nat.zero_add]
    rfl

end Sys2Proof.Machine
end

section
/-! PROOFS. The shape of the micro-programs (40_microengine.md R107, R108): a preamble without a bus
write, then a table of split writes; and what it says of the operands and of the chip-selects
(10_state.md R33, 20_memory.md R57). -/

namespace Sys2Proof.Machine

/-- What a micro-program performs before its table (R108). -/
def preamble (p : Params) : HostOp → List MicroOp
  | .reset => resetSeq p
  | .waitBusy => [.poll]
  | .powerOn => []
  | .init => resetSeq p ++ [.poll]
  | .write _ => []
  | .sleep => []

theorem program_eq_preamble_append (p : Params) (op : HostOp) :
    program p op = preamble p op ++ issueTable (tableOf p op) := by
  cases op with
  | reset | waitBusy | powerOn | init | sleep => rfl
  | write P => simp [program, preamble, tableOf, issueTable, entryOps_plain]

theorem xfer_notMem_preamble (p : Params) (op : HostOp) (P : Payload) :
    .xfer P ∉ preamble p op := by
  cases op <;> simp [preamble, resetSeq]

/-! Operands (R55, R103, R104). -/

theorem xfer_mem_split_iff (P Q : Payload) : .xfer Q ∈ split P ↔ Q = P := by
  simp [split]

theorem xfer_notMem_waitOps (w : Bool) (P : Payload) : .xfer P ∉ waitOps w := by
  cases w <;> simp [waitOps]

theorem xfer_notMem_dlyOps (d : Nat) (P : Payload) : .xfer P ∉ dlyOps d := by
  by_cases h : 0 < d <;> simp [dlyOps, h]

/-- What goes out on the bus is the payloads of the table (R107, R108). -/
theorem xfer_mem_program_iff (p : Params) (op : HostOp) (P : Payload) :
    .xfer P ∈ program p op ↔ ∃ e ∈ tableOf p op, P = e.payload := by
  simp [program_eq_preamble_append, xfer_notMem_preamble, mem_issueTable_iff, entryOps,
    xfer_mem_split_iff, xfer_notMem_waitOps, xfer_notMem_dlyOps]

theorem length_payload_le (c : Cfg) (p : Params) (op : HostOp) (e : Entry) (hwf : p.WellFormed c)
    (hlen : ∀ P, op = .write P → P.length ≤ p.maxPayload) (he : e ∈ tableOf p op) :
    e.payload.length ≤ p.maxPayload := by
  obtain ⟨-, -, -, -, htable, -, hmax, hdslp⟩ := hwf
  cases op with
  | reset | waitBusy => cases he
  | powerOn =>
    simp only [tableOf, powerTable, List.mem_cons, List.not_mem_nil, or_false] at he
    rcases he with rfl | rfl | rfl
    · exact Nat.le_trans (show 1 ≤ 10 by decide) hmax
    · exact Nat.le_trans (show 2 ≤ 10 by decide) hmax
    · exact Nat.le_trans (show 2 ≤ 10 by decide) hmax
  | init =>
    obtain ⟨P, hP, rfl⟩ := List.mem_map.1 he
    exact htable P hP
  | write P =>
    obtain rfl := List.mem_singleton.1 he
    exact hlen P rfl
  | sleep =>
    obtain rfl := List.mem_singleton.1 he
    exact hdslp

/-- Settles O29: the payloads are those of the table, and each delay is one of the well-formed
parameters or positive. -/
theorem programsAreWellFormed : Obligations.ProgramsAreWellFormed := by
  unfold Obligations.ProgramsAreWellFormed
  intro c p op m hwf hlen hm
  cases m with
  | set _ _ | poll => rfl
  | xfer P =>
    obtain ⟨e, he, rfl⟩ := (xfer_mem_program_iff p op P).1 hm
    exact decide_eq_true (length_payload_le c p op e hwf hlen he)
  | dly n =>
    obtain ⟨-, hreset, -⟩ := hwf
    refine decide_eq_true ?_
    rcases dly_mem_program p op n hm with rfl | ⟨hpos, -⟩ | ⟨hpos, -⟩
    · exact hreset
    · exact hpos
    · exact hpos

/-! Where the bus writes of a micro-program stand (R57, R122). -/

/-- Every bus write of `ops` is one of the two of a split write. -/
def XfersInSplits (ops : List MicroOp) : Prop :=
  ∀ k P, ops[k]? = some (.xfer P) → ∃ a, split P <+: ops.drop a ∧ (k = a + 1 ∨ k = a + 5)

theorem xfersInSplits_of_no_xfer (ops : List MicroOp) (h : ∀ P, .xfer P ∉ ops) :
    XfersInSplits ops :=
  fun _ P hk => absurd (List.mem_of_getElem? hk) (h P)

theorem getElem?_split_eq_xfer (P Q : Payload) (k : Nat) (h : (split P)[k]? = some (.xfer Q)) :
    Q = P ∧ (k = 1 ∨ k = 5) := by
  have hk : k < 8 := (List.getElem?_eq_some_iff.1 h).1
  match k, hk, h with
  | 1, _, rfl => exact ⟨rfl, .inl rfl⟩
  | 5, _, rfl => exact ⟨rfl, .inr rfl⟩
  | 0, _, h | 2, _, h | 3, _, h | 4, _, h | 6, _, h | 7, _, h => cases h

theorem xfersInSplits_split (P : Payload) : XfersInSplits (split P) := by
  intro k Q h
  obtain ⟨rfl, hk⟩ := getElem?_split_eq_xfer P Q k h
  exact ⟨0, List.prefix_rfl, by simpa using hk⟩

theorem xfersInSplits_append (a b : List MicroOp) (ha : XfersInSplits a) (hb : XfersInSplits b) :
    XfersInSplits (a ++ b) := by
  intro k P h
  by_cases hk : k < a.length
  · rw [List.getElem?_append_left hk] at h
    obtain ⟨i, hi, hpos⟩ := ha k P h
    refine ⟨i, ?_, hpos⟩
    rw [List.drop_append]
    exact hi.trans (List.prefix_append _ _)
  · rw [Nat.not_lt] at hk
    rw [List.getElem?_append_right hk] at h
    obtain ⟨i, hi, hpos⟩ := hb _ P h
    refine ⟨a.length + i, ?_, by omega⟩
    rwa [List.drop_append, List.drop_eq_nil_of_le (Nat.le_add_right _ _), List.nil_append,
      Nat.add_sub_cancel_left]

theorem xfersInSplits_issueTable (T : List Entry) : XfersInSplits (issueTable T) := by
  induction T with
  | nil => exact xfersInSplits_of_no_xfer _ (by simp [issueTable])
  | cons e t ih =>
    have hentry : XfersInSplits (entryOps e) :=
      xfersInSplits_append _ _ (xfersInSplits_append _ _ (xfersInSplits_split e.payload)
        (xfersInSplits_of_no_xfer _ (xfer_notMem_waitOps e.wait)))
        (xfersInSplits_of_no_xfer _ (xfer_notMem_dlyOps e.dly))
    exact xfersInSplits_append _ _ hentry ih

theorem xfersInSplits_program (p : Params) (op : HostOp) : XfersInSplits (program p op) := by
  rw [program_eq_preamble_append]
  exact xfersInSplits_append _ _ (xfersInSplits_of_no_xfer _ (xfer_notMem_preamble p op))
    (xfersInSplits_issueTable _)

/-- Under the invariant the micro-program in flight is that of the operation (R108). -/
theorem inv_mp (s : State) (r : RunRec) (hs : Inv s) (hr : s.run = .busy r) :
    r.mp = program s.params r.op := by
  obtain ⟨-, -, -, hrun⟩ := hs
  exact (hrun r hr).1

theorem inv_pinsTrack (s : State) (r : RunRec) (hs : Inv s) (hr : s.run = .busy r) :
    PinsTrack s.pins r := by
  obtain ⟨-, -, -, hrun⟩ := hs
  obtain ⟨-, -, -, -, -, htrack⟩ := hrun r hr
  exact htrack

theorem xfer_in_split (s : State) (r : RunRec) (P : Payload) (hs : Inv s) (hr : s.run = .busy r)
    (hm : r.mp[r.upc]? = some (.xfer P)) :
    ∃ a, split P <+: r.mp.drop a ∧ (r.upc = a + 1 ∨ r.upc = a + 5) := by
  have hmp := inv_mp s r hs hr
  exact (hmp ▸ xfersInSplits_program s.params r.op) r.upc P hm

/-! The chip-selects inside a split write. -/

theorem take_add_of_prefix_drop {α : Type} {l mp : List α} {a j : Nat} (h : l <+: mp.drop a)
    (hj : j ≤ l.length) : mp.take (a + j) = mp.take a ++ l.take j := by
  obtain ⟨rest, hrest⟩ := h
  rw [List.take_add, ← hrest, List.take_append_of_le_length hj]

/-- `j` steps into a split write a pin it has set holds the level set last (R28). -/
theorem pins_in_split (s : State) (r : RunRec) (P : Payload) (a j : Nat) (q : Pin) (l : Level)
    (hs : Inv s) (hr : s.run = .busy r) (hmp : (r.mp.drop a).take 8 = split P) (hj : j ≤ 8)
    (hupc : r.upc = a + j) (hl : lastSet q ((split P).take j) = some l) :
    s.pins.get q = latchOf l := by
  apply inv_pinsTrack s r hs hr q l
  rw [hupc, take_add_of_prefix_drop (split_prefix_drop hmp) hj, lastSet_append, hl]
  rfl

/-- The first bus write, and the second, is followed by raising both selects. -/
theorem xfer_raises_prefix (r : RunRec) (P : Payload) (a : Nat) (hmp : split P <+: r.mp.drop a)
    (hupc : r.upc = a + 1 ∨ r.upc = a + 5) :
    [.xfer P, .set .cs1 .high, .set .cs2 .high] <+: r.mp.drop r.upc := by
  obtain ⟨rest, hrest⟩ := hmp
  rcases hupc with hupc | hupc <;> rw [hupc, ← List.drop_drop, ← hrest]
  · exact List.prefix_append [_, _, _] _
  · exact List.prefix_append [_, _, _] rest

/-- Settles O49: the latches are at the levels of the SETs before `UPC`, the bus writes of a
micro-program are those of its split writes, and after each both selects are raised. -/
theorem chipSelectIsLowDuringItsIssuance : Obligations.ChipSelectIsLowDuringItsIssuance := by
  unfold Obligations.ChipSelectIsLowDuringItsIssuance
  refine ⟨?_, ?_, ?_⟩
  · intro s r P a hs hr hmp
    have pin (j : Nat) (q : Pin) (l : Level) := pins_in_split s r P a j q l hs hr hmp
    refine ⟨?_, fun h4 => ⟨?_, ?_⟩, ?_, fun h8 => ⟨?_, ?_⟩⟩
    · rintro (h1 | h2)
      · exact pin 1 .cs1 .low (by decide) h1 rfl
      · exact pin 2 .cs1 .low (by decide) h2 rfl
    · exact pin 4 .cs1 .high (by decide) h4 rfl
    · exact pin 4 .cs2 .high (by decide) h4 rfl
    · rintro (h5 | h6)
      · exact ⟨pin 5 .cs1 .high (by decide) h5 rfl, pin 5 .cs2 .low (by decide) h5 rfl⟩
      · exact ⟨pin 6 .cs1 .high (by decide) h6 rfl, pin 6 .cs2 .low (by decide) h6 rfl⟩
    · exact pin 8 .cs1 .high (by decide) h8 rfl
    · exact pin 8 .cs2 .high (by decide) h8 rfl
  · intro s r P hs hr hm
    obtain ⟨a, hmp, hupc⟩ := xfer_in_split s r P hs hr hm
    exact ⟨a, (List.prefix_iff_eq_take.1 hmp).symm, hupc⟩
  · intro s r P as hs hr hm ha
    obtain ⟨a, hmp, hupc⟩ := xfer_in_split s r P hs hr hm
    exact ⟨_, runSteps_performs s r _ as hr (xfer_raises_prefix r P a hmp hupc) rfl ha,
      rfl, rfl, rfl, rfl⟩

/-! The latches after a whole micro-program (R33 (c), (d)). -/

theorem lastSet_eq_none (q : Pin) (ops : List MicroOp) (h : ∀ l, .set q l ∉ ops) :
    lastSet q ops = none := by
  induction ops with
  | nil => rfl
  | cons m t ih =>
    have ht : ∀ l, .set q l ∉ t := fun l hl => h l (List.mem_cons_of_mem m hl)
    cases m with
    | set p l =>
      have hne : p ≠ q := by
        rintro rfl
        exact h l List.mem_cons_self
      simp [lastSet, hne, ih ht]
    | xfer P | dly n | poll => exact ih ht

theorem set_notMem_waitOps (w : Bool) (q : Pin) (l : Level) : .set q l ∉ waitOps w := by
  cases w <;> simp [waitOps]

theorem set_notMem_dlyOps (d : Nat) (q : Pin) (l : Level) : .set q l ∉ dlyOps d := by
  by_cases h : 0 < d <;> simp [dlyOps, h]

theorem lastSet_entryOps (q : Pin) (e : Entry) :
    lastSet q (entryOps e) = lastSet q (split e.payload) := by
  rw [entryOps, lastSet_append, lastSet_append, lastSet_eq_none q _ (set_notMem_dlyOps _ q),
    lastSet_eq_none q _ (set_notMem_waitOps _ q)]
  rfl

theorem lastSet_split (P : Payload) :
    lastSet .cs1 (split P) = some .high ∧ lastSet .cs2 (split P) = some .high ∧
      lastSet .rst (split P) = none := ⟨rfl, rfl, rfl⟩

/-- A table that is not empty leaves a pin as its split writes do. -/
theorem lastSet_issueTable (q : Pin) (x : Option Level) (T : List Entry) (hT : T ≠ [])
    (hx : ∀ P, lastSet q (split P) = x) : lastSet q (issueTable T) = x := by
  induction T with
  | nil => exact absurd rfl hT
  | cons e t ih =>
    rw [issueTable, lastSet_append, lastSet_entryOps, hx]
    by_cases ht : t = []
    · rw [ht]
      rfl
    · rw [ih ht, Option.or_self]

theorem lastSet_program_of_xfer (p : Params) (op : HostOp) (P : Payload)
    (h : .xfer P ∈ program p op) :
    lastSet .cs1 (program p op) = some .high ∧ lastSet .cs2 (program p op) = some .high := by
  obtain ⟨e, he, -⟩ := (xfer_mem_program_iff p op P).1 h
  have hT : tableOf p op ≠ [] := List.ne_nil_of_mem he
  rw [program_eq_preamble_append, lastSet_append, lastSet_append,
    lastSet_issueTable .cs1 (some .high) _ hT fun P => (lastSet_split P).1,
    lastSet_issueTable .cs2 (some .high) _ hT fun P => rfl]
  exact ⟨rfl, rfl⟩

theorem lastSet_rst_issueTable (T : List Entry) : lastSet .rst (issueTable T) = none := by
  by_cases hT : T = []
  · rw [hT]
    rfl
  · exact lastSet_issueTable .rst none T hT fun P => rfl

theorem lastSet_rst_program (p : Params) (op : HostOp) (h : op = .reset ∨ op = .init) :
    lastSet .rst (program p op) = some .low := by
  rw [program_eq_preamble_append, lastSet_append, lastSet_rst_issueTable]
  rcases h with rfl | rfl <;> rfl

/-- Settles O50: at the end every SET has been performed, and the complete step writes no latch. -/
theorem completionLeavesThePins : Obligations.CompletionLeavesThePins := by
  unfold Obligations.CompletionLeavesThePins
  intro s t r hs hr hend h
  rw [step_busy_end s r hr hend] at h
  injection h with h
  subst h
  have hmp := inv_mp s r hs hr
  have htrack := inv_pinsTrack s r hs hr
  rw [PinsTrack, hend, List.take_length, hmp] at htrack
  refine ⟨rfl, ?_, fun hop => htrack .rst .low (lastSet_rst_program s.params r.op hop)⟩
  rintro ⟨P, hP⟩
  obtain ⟨h1, h2⟩ := lastSet_program_of_xfer s.params r.op P (hmp ▸ hP)
  exact ⟨htrack .cs1 .high h1, htrack .cs2 .high h2⟩

end Sys2Proof.Machine
end

section
/-! PROOFS. The polarity of the busy pin (20_memory.md R52): turning it over commutes with every
operation of a step. -/

namespace Sys2Proof.Machine

/-! The accept step and the micro-operations but POLL do not read the pin. -/

theorem acceptOp_flipBusy (s : State) (op : HostOp) :
    s.flipBusy.acceptOp op = (s.acceptOp op).flipBusy := by
  rcases acceptOp_cases s op with ⟨ha, he⟩ | ⟨ha, he⟩ <;> rw [he]
  · exact if_pos ha
  · exact if_neg (Bool.eq_false_iff.1 ha)

theorem whenIdle_flipBusy (F : Frame) (act : State → State) (s : State)
    (h : act s.flipBusy = (act s).flipBusy) :
    whenIdle F act s.flipBusy = (whenIdle F act s).flipBusy := by
  cases hr : s.run with
  | idle => rw [whenIdle_idle F act s hr, whenIdle_idle F act s.flipBusy hr, h]
  | busy r =>
    rw [whenIdle_busy F act s r hr, whenIdle_busy F act s.flipBusy r hr]
    rfl

theorem exec_command_flipBusy (i : Instr) (s t : State) (hc : i.channel = .command)
    (h : exec i s = .next t) : exec i s.flipBusy = .next t.flipBusy := by
  have flip (F : Frame) (act : State → State) (ha : act s.flipBusy = (act s).flipBusy)
      (he : Host.Outcome.next (whenIdle F act s) =
        (Host.Outcome.next t : Host.Outcome State Fault Refusal)) :
      Host.Outcome.next (whenIdle F act s.flipBusy) =
        (Host.Outcome.next t.flipBusy : Host.Outcome State Fault Refusal) := by
    injection he with he
    rw [whenIdle_flipBusy F act s ha, he]
  cases i with
  | stat | reserved07 _ | reservedHigh _ _ => exact flip _ _ rfl h
  | reset | waitBusy | powerOn | init | sleep => exact flip _ _ (acceptOp_flipBusy s _) h
  | write P =>
    refine flip _ _ ?_ h
    by_cases hP : P.length ≤ s.params.maxPayload
    · exact (if_pos hP).trans ((acceptOp_flipBusy s _).trans (by rw [if_pos hP]))
    · exact (if_neg hP).trans (by rw [if_neg hP]; rfl)
  | resp _ _ _ _ | pon | drf | pof | dslp | set _ _ | xfer _ | dly _ | poll => cases hc

theorem pinSetOp_flipBusy (p : Pin) (l : Level) (r : RunRec) (s : State) :
    pinSetOp p l r s.flipBusy = (pinSetOp p l r s).flipBusy := by
  rcases pinSetOp_cases p l r s with ⟨ha, he⟩ | ⟨ha, he⟩ <;> rw [he]
  · exact pinSetOp_of_ok p l r s.flipBusy ha
  · exact pinSetOp_of_fault p l r s.flipBusy ha

theorem busWriteOp_flipBusy (P : Payload) (r : RunRec) (s : State) :
    busWriteOp P r s.flipBusy = (busWriteOp P r s).flipBusy := by
  rcases busWriteOp_cases P r s with ⟨ha, he⟩ | ⟨ha, he⟩ <;> rw [he]
  · exact busWriteOp_of_ok P r s.flipBusy ha
  · exact busWriteOp_of_fault P r s.flipBusy ha

/-! POLL reads it, and compares it with `READY_LEVEL`. -/

theorem otherLevel_inj (a b : Level) : otherLevel a = otherLevel b ↔ a = b := by
  cases a <;> cases b <;> decide

theorem ready_flipBusy (s : State) (h : s.env.levels ≠ []) : s.flipBusy.ready = s.ready := by
  obtain ⟨l, ls, hl⟩ := List.exists_cons_of_ne_nil h
  have hflip : s.flipBusy.env.levels = otherLevel l :: ls.map otherLevel :=
    congrArg (List.map otherLevel) hl
  rw [Bool.eq_iff_iff, State.ready_iff, State.ready_iff, s.level_cons l ls hl,
    s.flipBusy.level_cons _ _ hflip]
  exact otherLevel_inj _ _

theorem takeLevel_flipBusy (s : State) : s.flipBusy.takeLevel = s.takeLevel.flipBusy := by
  simp [State.takeLevel, State.flipBusy, List.map_tail]

theorem pollOp_flipBusy (r : RunRec) (s : State) (h : s.env.levels ≠ []) :
    pollOp r s.flipBusy = (pollOp r s).flipBusy := by
  have hready := ready_flipBusy s h
  have htake := takeLevel_flipBusy (s.emit .busyRead)
  rcases pollOp_cases r s with ⟨hp, hr, he⟩ | ⟨hp, hr, he⟩ | ⟨hp, hb, he⟩ | ⟨hp, hb, he⟩ <;> rw [he]
  · have hlevel := s.flipBusy.ready_iff.1 (hready.trans hr)
    exact (pollOp_of_ready r s.flipBusy hp hlevel).trans (congrArg (State.advance · _) htake)
  · have hlevel : s.flipBusy.level ≠ s.flipBusy.cfg.readyLevel := fun hl =>
      Bool.false_ne_true ((hready.trans hr).symm.trans (s.flipBusy.ready_iff.2 hl))
    exact (pollOp_of_notReady r s.flipBusy hp hlevel).trans (congrArg (State.setRun · _) htake)
  · obtain ⟨n, hn, hle⟩ := (boundReached_iff _ _).1 hb
    exact pollOp_of_sleep_bound r s.flipBusy n hp hn hle
  · exact pollOp_of_sleep_belowBound r s.flipBusy hp ((boundReached_eq_false_iff s.cfg _).1 hb)

/-- Settles O59: the pin is read by POLL alone, which compares it with `READY_LEVEL`. -/
theorem busyPolarityIsInvisible : Obligations.BusyPolarityIsInvisible := by
  unfold Obligations.BusyPolarityIsInvisible
  intro s t hlev h
  rcases step_cases s t h with ⟨r, m, hr, hm, he⟩ | ⟨r, hr, hend, rfl⟩ |
    ⟨F, rest, i, hi, hf, hd, he⟩ | ⟨F, rest, e, hi, hf, hd, rfl⟩ | ⟨hi, hf, rfl⟩
  · rw [exec_micro m s r hr] at he
    injection he with he
    subst he
    rw [step_busy_micro s.flipBusy r m hr hm, exec_micro m s.flipBusy r hr]
    refine congrArg Host.Outcome.next ?_
    cases m with
    | set p l => exact pinSetOp_flipBusy p l r s
    | xfer P => exact busWriteOp_flipBusy P r s
    | dly n => rfl
    | poll => exact pollOp_flipBusy r s hlev
  · exact step_busy_end s.flipBusy r hr hend
  · rw [step_idle_instr s.flipBusy F rest i hi hf hd]
    exact exec_command_flipBusy i _ t (decodeFrame_channel _ _ _ hd) he
  · exact step_idle_rejected s.flipBusy F rest e hi hf hd
  · exact step_idle_nil t.flipBusy hi hf

end Sys2Proof.Machine
end

section
/-! PROOFS. The designer's registers (10_state.md R27, R32): `RS`, `IDX`, `EPH` and `SW` locate the
micro-operation at `UPC` in the micro-program, and `PBUF` holds the payload of the split write
there. -/

namespace Sys2Proof.Machine

/-! The phases of a table entry are its micro-operations, one each (R83, R120). -/

/-- At its micro-operation `k` the entry `e` is in the phase that performs it. -/
def PhasePerforms (e : Entry) (k : Nat) : Prop :=
  ∃ ph, e.phase k = .inl ph ∧ (entryOps e)[k]? = ph.microOp e ∧ k < (entryOps e).length

/-- `k` lies past the entry `e`, as far as `Entry.phase` says. -/
def PastEntry (e : Entry) (k : Nat) : Prop :=
  ∃ k', e.phase k = .inr k' ∧ k = (entryOps e).length + k'

theorem phasePerforms_of_lt (e : Entry) (k : Nat) (h : k < 8) : PhasePerforms e k := by
  refine ⟨.split k, if_pos h, ?_, ?_⟩
  · rw [entryOps, List.append_assoc]
    exact List.getElem?_append_left h
  · rw [length_entryOps]
    omega

theorem getElem?_entryOps_add_eight (e : Entry) (j : Nat) :
    (entryOps e)[8 + j]? = (waitOps e.wait ++ dlyOps e.dly)[j]? := by
  rw [entryOps, List.append_assoc]
  exact (List.getElem?_append_right (Nat.le_add_right 8 j)).trans
    (by rw [length_split, Nat.add_sub_cancel_left])

theorem phasePerforms_add_eight (e : Entry) (j : Nat) (ph : EntryPhase) (m : MicroOp)
    (hph : e.phase (8 + j) = .inl ph) (hm : ph.microOp e = some m)
    (hj : (waitOps e.wait ++ dlyOps e.dly)[j]? = some m) : PhasePerforms e (8 + j) := by
  have hget := (getElem?_entryOps_add_eight e j).trans hj
  exact ⟨ph, hph, hget.trans hm.symm, (List.getElem?_eq_some_iff.1 hget).1⟩

theorem pastEntry_add_eight (e : Entry) (j i : Nat) (hph : e.phase (8 + j) = .inr i)
    (hj : j = (if e.wait then 1 else 0) + (if 0 < e.dly then 1 else 0) + i) :
    PastEntry e (8 + j) := by
  refine ⟨i, hph, ?_⟩
  rw [length_entryOps]
  omega

/-- After its split write an entry has its wait and its delay, if it has them (R107). -/
theorem phase_cases_add_eight (e : Entry) (j : Nat) :
    PhasePerforms e (8 + j) ∨ PastEntry e (8 + j) := by
  have hge (n : Nat) : ¬ 8 + n < 8 := by omega
  have hne (n : Nat) : 8 + (n + 1) ≠ 8 := by omega
  cases hw : e.wait with
  | true =>
    by_cases hd : 0 < e.dly
    · match j with
      | 0 => exact .inl (phasePerforms_add_eight e 0 .wait .poll
          (by rw [Entry.phase, if_neg (hge 0), if_pos hw, if_pos rfl]) rfl (by rw [hw]; rfl))
      | 1 => exact .inl (phasePerforms_add_eight e 1 .dly (.dly e.dly)
          (by rw [Entry.phase, if_neg (hge 1), if_pos hw, if_neg (hne 0), if_pos hd, if_pos rfl])
          rfl (by rw [hw, dlyOps, if_pos hd]; rfl))
      | i + 2 =>
        have hnine : 8 + (i + 2) ≠ 9 := by omega
        refine .inr (pastEntry_add_eight e (i + 2) i ?_ ?_)
        · rw [Entry.phase, if_neg (hge _), if_pos hw, if_neg (hne _), if_pos hd, if_neg hnine]
          exact congrArg Sum.inr (by omega)
        · rw [if_pos hw, if_pos hd]
          omega
    · match j with
      | 0 => exact .inl (phasePerforms_add_eight e 0 .wait .poll
          (by rw [Entry.phase, if_neg (hge 0), if_pos hw, if_pos rfl]) rfl (by rw [hw]; rfl))
      | i + 1 =>
        refine .inr (pastEntry_add_eight e (i + 1) i ?_ ?_)
        · rw [Entry.phase, if_neg (hge _), if_pos hw, if_neg (hne _), if_neg hd]
          exact congrArg Sum.inr (by omega)
        · rw [if_pos hw, if_neg hd]
          omega
  | false =>
    have hw' : ¬ e.wait = true := by rw [hw]; exact Bool.false_ne_true
    by_cases hd : 0 < e.dly
    · match j with
      | 0 => exact .inl (phasePerforms_add_eight e 0 .dly (.dly e.dly)
          (by rw [Entry.phase, if_neg (hge 0), if_neg hw', if_pos hd, if_pos rfl]) rfl
          (by rw [hw, dlyOps, if_pos hd]; rfl))
      | i + 1 =>
        refine .inr (pastEntry_add_eight e (i + 1) i ?_ ?_)
        · rw [Entry.phase, if_neg (hge _), if_neg hw', if_pos hd, if_neg (hne _)]
          exact congrArg Sum.inr (by omega)
        · rw [if_neg hw', if_pos hd]
          omega
    · refine .inr (pastEntry_add_eight e j j ?_ ?_)
      · rw [Entry.phase, if_neg (hge _), if_neg hw', if_neg hd]
        exact congrArg Sum.inr (by omega)
      · rw [if_neg hw', if_neg hd]
        omega

theorem phase_cases (e : Entry) (k : Nat) : PhasePerforms e k ∨ PastEntry e k := by
  by_cases h : k < 8
  · exact .inl (phasePerforms_of_lt e k h)
  · rw [← Nat.add_sub_cancel' (Nat.not_lt.1 h)]
    exact phase_cases_add_eight e (k - 8)

/-! The sub-block at `UPC` performs the micro-operation there (R32). -/

theorem microOp_table (p : Params) (op : HostOp) (idx : Nat) (e : Entry) (ph : EntryPhase)
    (he : (tableOf p op)[idx]? = some e) :
    SubBlock.microOp p op (.table idx ph) = ph.microOp e := by
  simp [SubBlock.microOp, he]

/-- `locate` finds micro-operation `k` of a table, here the part `T` of the table of `op`. -/
theorem getElem?_issueTable (p : Params) (op : HostOp) (pre T : List Entry) (k : Nat)
    (hT : tableOf p op = pre ++ T) :
    (issueTable T)[k]? = (locate T pre.length k).bind fun b => b.microOp p op := by
  induction T generalizing pre k with
  | nil => rfl
  | cons e t ih =>
    rcases phase_cases e k with ⟨ph, hph, hget, hlt⟩ | ⟨k', hph, rfl⟩
    · have he : (tableOf p op)[pre.length]? = some e := by simp [hT]
      rw [issueTable, List.getElem?_append_left hlt, hget, locate, hph]
      exact (microOp_table p op pre.length e ph he).symm
    · rw [issueTable, List.getElem?_append_right (Nat.le_add_right _ _), Nat.add_sub_cancel_left,
        locate, hph]
      have hnext := ih (pre ++ [e]) k' (by simpa using hT)
      rwa [List.length_append] at hnext

theorem getElem?_issueTable_tableOf (p : Params) (op : HostOp) (k : Nat) :
    (issueTable (tableOf p op))[k]? =
      (locate (tableOf p op) 0 k).bind fun b => b.microOp p op :=
  getElem?_issueTable p op [] _ k rfl

theorem getElem?_program (p : Params) (op : HostOp) (upc : Nat) :
    (program p op)[upc]? = (SubBlock.at p op upc).bind fun b => b.microOp p op := by
  have htable := getElem?_issueTable_tableOf p op
  cases op with
  | reset =>
    by_cases h : upc < 7
    · simp [SubBlock.at, h, SubBlock.microOp, program]
    · simp [SubBlock.at, h, program]
  | waitBusy =>
    cases upc with
    | zero => rfl
    | succ n => rfl
  | powerOn => exact htable upc
  | init =>
    rw [program_eq_preamble_append]
    by_cases h : upc < 7
    · rw [preamble, List.append_assoc, List.getElem?_append_left h, SubBlock.at, if_pos h]
      rfl
    · obtain ⟨k, rfl⟩ : ∃ k, upc = 7 + k := ⟨upc - 7, by omega⟩
      cases k with
      | zero => rfl
      | succ k =>
        have hne : 7 + (k + 1) ≠ 7 := by omega
        have hk : 7 + (k + 1) - 8 = k := by omega
        have hlen : (preamble p .init).length = 8 := rfl
        rw [List.getElem?_append_right (by omega), SubBlock.at, if_neg h, if_neg hne, hlen, hk]
        exact htable k
  | write P =>
    rw [program_eq_preamble_append]
    exact htable upc
  | sleep => exact htable upc

/-! The payload buffer (R27). -/

/-- Only the table engine, inside a split write, sends on the bus (R32). -/
theorem microOp_eq_xfer (p : Params) (op : HostOp) (b : SubBlock) (P : Payload)
    (h : b.microOp p op = some (.xfer P)) :
    ∃ idx sw e, b = .table idx (.split sw) ∧ (tableOf p op)[idx]? = some e ∧ e.payload = P := by
  cases b with
  | resetSeq rs =>
    rcases getElem?_resetSeq_cases p rs _ h with ⟨-, l, hl⟩ | ⟨-, hd⟩
    · cases hl
    · cases hd
  | busyWait => cases h
  | table idx ph =>
    cases he : (tableOf p op)[idx]? with
    | none => simp [SubBlock.microOp, he] at h
    | some e =>
      rw [microOp_table p op idx e ph he] at h
      cases ph with
      | split sw => exact ⟨idx, sw, e, rfl, he, (getElem?_split_eq_xfer _ P sw h).1.symm⟩
      | wait | dly => cases h

theorem buffered_of_at (s : State) (r : RunRec) (idx sw : Nat) (e : Entry) (hr : s.run = .busy r)
    (hat : SubBlock.at s.params r.op r.upc = some (.table idx (.split sw)))
    (he : (tableOf s.params r.op)[idx]? = some e) : s.buffered = some e.payload := by
  simp [State.buffered, hr, hat, he]

/-- At a bus write the buffer holds the payload that goes out (R27). -/
theorem buffered_of_xfer (s : State) (r : RunRec) (P : Payload) (hs : Inv s) (hr : s.run = .busy r)
    (hm : r.mp[r.upc]? = some (.xfer P)) : s.buffered = some P := by
  rw [inv_mp s r hs hr, getElem?_program] at hm
  obtain ⟨b, hat, hb⟩ := Option.bind_eq_some_iff.1 hm
  obtain ⟨idx, sw, e, rfl, he, rfl⟩ := microOp_eq_xfer _ _ b P hb
  exact buffered_of_at s r idx sw e hr hat he

/-- Every payload of the operation in flight fits the buffer (R55, R177). -/
theorem inv_length_payload_le (s : State) (r : RunRec) (e : Entry) (hs : Inv s)
    (hr : s.run = .busy r) (he : e ∈ tableOf s.params r.op) :
    e.payload.length ≤ s.params.maxPayload := by
  obtain ⟨hwf, -, -, hrun⟩ := hs
  obtain ⟨-, -, -, hlen, -, -⟩ := hrun r hr
  exact length_payload_le s.cfg s.params r.op e hwf hlen he

/-- While the operation in flight goes on, the entry at `UPC` is one of its table. -/
theorem entry_of_at (s t : State) (r q : RunRec) (idx : Nat) (ph : EntryPhase) (hs : Inv s)
    (hr : s.run = .busy r) (hat : SubBlock.at s.params r.op r.upc = some (.table idx ph))
    (h : step s = .next t) (hq : t.run = .busy q) :
    ∃ e, (tableOf s.params r.op)[idx]? = some e := by
  rcases step_busy_cases s t r hr h with ⟨m, hm, -⟩ | ⟨-, rfl⟩
  · rw [inv_mp s r hs hr, getElem?_program, hat] at hm
    cases he : (tableOf s.params r.op)[idx]? with
    | none => simp [SubBlock.microOp, he] at hm
    | some e => exact ⟨e, rfl⟩
  · cases hq

/-- Settles O60: the sub-block at `UPC` performs the micro-operation there; it names the entry whose
payload is buffered, the same one all through a split write. -/
theorem designersRegistersAgree : Obligations.DesignersRegistersAgree := by
  unfold Obligations.DesignersRegistersAgree
  refine ⟨getElem?_program, fun s => by simp [State.pbuf], ?_, ?_⟩
  · intro s r P hs hr hm
    have hbuf := buffered_of_xfer s r P hs hr hm
    have hmem : .xfer P ∈ program s.params r.op := inv_mp s r hs hr ▸ List.mem_of_getElem? hm
    obtain ⟨e, he, rfl⟩ := (xfer_mem_program_iff _ _ _).1 hmem
    exact ⟨s.plen_of_buffered _ hbuf,
      s.take_pbuf_of_buffered _ hbuf (inv_length_payload_le s r e hs hr he)⟩
  · intro s t r q idx a b hs hr hat h hq hat'
    obtain ⟨e, he⟩ := entry_of_at s t r q idx _ hs hr hat h hq
    obtain ⟨⟨-, hparams⟩, hsame⟩ := step_busy_keeps s t r hr h
    obtain ⟨hop, -⟩ := hsame q hq
    have hlen := inv_length_payload_le s r e hs hr (List.mem_of_getElem? he)
    have hbuf := buffered_of_at s r idx a e hr hat he
    have hbuf' := buffered_of_at t q idx b e hq hat' (by rw [hparams, hop, he])
    refine ⟨(t.plen_of_buffered _ hbuf').trans (s.plen_of_buffered _ hbuf).symm, ?_⟩
    rw [t.take_pbuf_of_buffered _ hbuf' (by rwa [hparams]), s.take_pbuf_of_buffered _ hbuf hlen]

end Sys2Proof.Machine
end
